-- ==== Sys2Proof/Word.lean ====
section
/-!
DEFINITION. Word.lean: the two word types of the spec (00_scope.md R9).
`u32` is `Word`, `u8` is `Byte`; `+` on `Word` is addition modulo 2^32, `^^^` exclusive or, and every value is unsigned (R8).
-/
namespace Sys2Proof

/-- R9: `u32`, the 32-bit unsigned words. -/
abbrev Word := BitVec 32

/-- R9: `u8`, the bytes. -/
abbrev Byte := BitVec 8

end Sys2Proof
end

