-- ==== Sys2Proof/Syntax.lean ====
section
/-!
DEFINITION. Syntax.lean: the commands of the engine, one constructor per row of spec/opcode_table.json (30_encoding.md R75).
-/
namespace Sys2Proof

/-- The seven legal commands (R75). Every operand but PAD's `r` is implicit (R74). -/
inductive Instr where
  /-- R170: complete with no effect. -/
  | nop
  /-- R95: build the CipherState from the key registers. -/
  | keysched
  /-- R126: encrypt the block in place. -/
  | encb
  /-- R130: decrypt the block in place. -/
  | decb
  /-- R150: pad the final block; `r` is the number of data bytes already in it, 0 to 7 (R72; the bound is in WellFormed). -/
  | pad (r : Nat)
  /-- R153: check the padding of the final block and report its data length. -/
  | unpad
  /-- R171: destroy the key material and clear the data registers. -/
  | zeroize
  deriving DecidableEq, Repr

end Sys2Proof
end

