-- ==== Sys2Proof/WellFormed.lean ====
section
/-!
DEFINITION. WellFormed.lean: which terms of Instr the encoding can carry (30_encoding.md R72, R75).
-/
namespace Sys2Proof

/-- R72: the legal values of PAD's operand are 0 to 7, "that is ARG[3] = c[7] = 0"; no other command has an operand. -/
def Instr.wellFormed (i : Instr) : Bool :=
  match i with
  | .nop => true
  | .keysched => true
  | .encb => true
  | .decb => true
  | .pad r => decide (r < 8)
  | .unpad => true
  | .zeroize => true

end Sys2Proof
end

