-- ==== Sys2Proof/Decode.lean ====
section
/-!
DEFINITION. Decode.lean: the decoder of command words and the encoder (30_encoding.md R70 to R77).
-/
namespace Sys2Proof

/-- R77: why a word is illegal, one name for each line of the rule's list. -/
inductive IllegalWord where
  /-- RSV = c[31:8] is not 0 (R73). -/
  | reservedBits
  /-- OP is 0x7 to 0xF (R71). -/
  | reservedOp
  /-- ARG is not 0 in a command that has no operand (R72). -/
  | argNotZero
  /-- PAD with ARG[3] = 1, that is ARG 8 to 15 (R72). -/
  | padCount
  deriving DecidableEq, Repr

/-- R76: what the decoder answers, "an operation or `Illegal`". -/
inductive Decoded where
  | command (i : Instr)
  | illegal (why : IllegalWord)
  deriving DecidableEq, Repr

/-- R70, R71: OP = c[3:0]. -/
def opField (c : Word) : BitVec 4 := c.extractLsb' 0 4

/-- R70, R72: ARG = c[7:4]. -/
def argField (c : Word) : BitVec 4 := c.extractLsb' 4 4

/-- R70, R73: RSV = c[31:8]. -/
def rsvField (c : Word) : BitVec 24 := c.extractLsb' 8 24

/-- R72, R76: a command without an operand is legal only with ARG = 0. -/
def decodeNoArg (arg : BitVec 4) (i : Instr) : Decoded :=
  if arg = 0 then .command i else .illegal .argNotZero

/-- R72, R74, R76: PAD's operand is r = zext(c[6:4]); c[7] must be 0. -/
def decodePad (arg : BitVec 4) : Decoded :=
  if arg.toNat < 8 then .command (.pad arg.toNat) else .illegal .padCount

/-- R76: the decoder, total on every 32-bit word. -/
def decode (c : Word) : Decoded :=
  if rsvField c ≠ 0 then .illegal .reservedBits
  else
    match (opField c).toNat with
    | 0 => decodeNoArg (argField c) .nop
    | 1 => decodeNoArg (argField c) .keysched
    | 2 => decodeNoArg (argField c) .encb
    | 3 => decodeNoArg (argField c) .decb
    | 4 => decodePad (argField c)
    | 5 => decodeNoArg (argField c) .unpad
    | 6 => decodeNoArg (argField c) .zeroize
    | _ => .illegal .reservedOp

/-- R70, R75: the command word of an instruction (OP, and for PAD r in ARG; RSV = 0). -/
def encode (i : Instr) : Word :=
  match i with
  | .nop => 0x0
  | .keysched => 0x1
  | .encb => 0x2
  | .decb => 0x3
  | .pad r => 0x4 ||| (BitVec.ofNat 32 r <<< 4)
  | .unpad => 0x5
  | .zeroize => 0x6

/-- The host's question: the instruction the decoder reads from a word of `nbits` bits. A command is ONE 32-bit word (R79), so a
number that does not fit in 32 bits is no command, and the bits above `nbits` are 0. -/
def decodeTableWord (nbits w : Nat) : Option Instr :=
  if w % 2 ^ nbits < 2 ^ 32 then
    match decode (BitVec.ofNat 32 (w % 2 ^ nbits)) with
    | .command i => some i
    | .illegal _ => none
  else none

end Sys2Proof
end

