-- ==== Sys2Proof/Config.lean ====
section
/-!
DEFINITION. Config.lean: what is fixed for the machine (00_scope.md R6, R7) and the one free value.
The constant ROM (41_ks_constants.md), which is a constant of the configuration too (R35, R117), stands in Machine/Rom.lean.
-/
namespace Sys2Proof.Config

/-- R7, R21: ID_VALUE, the read-only identification constant (ASCII "BFE1"). -/
def idValue : Word := 0x42464531

/-- R7, R50: WINDOW_BYTES, the size of the register window. -/
def windowBytes : Nat := 128

/-- R53: the only access width, in bytes. -/
def accessBytes : Nat := 4

/-- R6: BLOCK_BYTES. -/
def blockBytes : Nat := 8

/-- R6, R93: KEY_MIN, the least legal key length in bytes. -/
def keyMin : Nat := 1

/-- R6, R93: KEY_MAX, the greatest legal key length in bytes. -/
def keyMax : Nat := 56

/-- R7: the OPEN parameters, which "a model takes as an argument" (U10 to U14). The engine's own rules use none of them; the
definitions of Machine/Platform.lean that need one take this record as an argument, so what is said of them holds for every value. -/
structure Parameters where
  /-- BFE_BASE, R50, R58: the address of the window in the host's address space. -/
  bfeBase : Nat
  /-- BFE_ACCESS_POLICY, R59, R195: which bus masters, by number, the platform lets reach the window. -/
  bfeAccessPolicy : Nat → Bool
  /-- BFE_IRQ_ROUTE, R190: which inputs of the processor's interrupt controller, by number, are raised for a level of `irq`. -/
  bfeIrqRoute : Bool → List Nat
  /-- LAT_KS, R230, in engine cycles; a positive number, as the three below. -/
  latKs : Nat
  /-- LAT_BLK, R230. -/
  latBlk : Nat
  /-- LAT_PAD, R230. -/
  latPad : Nat
  /-- LAT_MISC, R230. -/
  latMisc : Nat
  /-- BFE_RST_TIMING, R210: whether the reset input is synchronous. -/
  rstSynchronous : Bool
  /-- BFE_RST_TIMING, R210: how many cycles it must be held. -/
  rstHold : Nat

/-- R7, R230: every latency is a positive number of engine cycles. -/
def Parameters.legal (pr : Parameters) : Bool :=
  decide (0 < pr.latKs) && decide (0 < pr.latBlk) && decide (0 < pr.latPad) && decide (0 < pr.latMisc)

/-- R187, U3: `any_u32`, the draw number `n`. A FREE VALUE (safe, log entry 5): it has no body, so nothing can be proved of it, and a
statement that mentions it holds whatever the engine drives on the bus. -/
opaque anyU32 (n : Nat) : Word

end Sys2Proof.Config
end

