-- ==== Sys2Proof/Machine/State.lean ====
section
/-!
DEFINITION. Machine/State.lean: the state of one engine (10_state.md), the events of its host interface (00_scope.md R19), and the
state after reset (R40). Everything is plain data.
-/
namespace Sys2Proof.Machine

/-- R32, R34: the CipherState, the whitening table P[0..17] and the substitution tables S[0..3][0..255]. -/
structure CipherState where
  p : Vector Word 18
  s : Vector (Vector Word 256) 4
  deriving DecidableEq, Repr

/-- R19, R60: one event of the total order of host accesses, engine turns and changes of `rst`. Offsets and sizes are in bytes,
offsets from BFE_BASE (R12). -/
inductive Event where
  /-- R12: `MemRead(off, size)`. -/
  | read (off size : Nat)
  /-- R12: `MemWrite(off, size, v)`. -/
  | write (off size : Nat) (v : Word)
  /-- R186: the engine's turn; it completes the pending command, and does nothing if none is pending. -/
  | engine
  /-- R210: the input `rst` goes to this level. -/
  | rst (asserted : Bool)
  deriving DecidableEq, Repr

/-- What an access gives back to the host: the word read (R56), or the bus error of R53. A performed write gives back nothing (R201). -/
inductive Response where
  | data (v : Word)
  | busError (off size : Nat)
  deriving DecidableEq, Repr

/-- The state of the engine, of the input `rst`, and of the host as far as the engine sees it. STATUS.BUSY, the ID value, the
interrupt line and the reserved bits are not stored: BUSY is `pend.isSome` (R36), `irq` is a function of STATUS and INTEN (R39),
reserved bits read 0 (U7). -/
structure State where
  /-- R23: STATUS.KEYVALID. -/
  keyValid : Bool
  /-- R23: STATUS.DONE. -/
  done : Bool
  /-- R23: STATUS.OVR. -/
  ovr : Bool
  /-- R23, R180: STATUS.ERR. -/
  err : BitVec 4
  /-- R24: INTEN.DONEIE. -/
  doneIe : Bool
  /-- R24: INTEN.OVRIE. -/
  ovrIe : Bool
  /-- R25: KEYLEN.LEN. -/
  keyLen : BitVec 6
  /-- R26: RESULT.NDATA. -/
  ndata : BitVec 4
  /-- R26: RESULT.NPAD. -/
  npad : BitVec 4
  /-- R27: BLK_L. -/
  blkL : Word
  /-- R27: BLK_R. -/
  blkR : Word
  /-- R28, R37: KEY0 to KEY13. -/
  key : Vector Word 14
  /-- R32: P and S. -/
  cipher : CipherState
  /-- R36: the pending command word. -/
  pend : Option Word
  /-- R210: the level of the input `rst`. -/
  rst : Bool
  /-- The MODEL's own field (DESIGN CHOICE, safe, log entry 1): the events still to come, first event first. -/
  agenda : List Event
  /-- The MODEL's own field (DESIGN CHOICE, safe, log entry 6): what accesses gave back to the host, newest first. -/
  received : List Response
  /-- The MODEL's own field (DESIGN CHOICE, safe, log entry 5): how many `any_u32` have been drawn. -/
  draws : Nat
  deriving DecidableEq, Repr

/-- Why the machine stops. No command raises a fault; both come from the host's accesses. -/
inductive Fault where
  /-- Raised by a host access at an offset of WINDOW_BYTES or more, which is outside the engine's one address space (R50, log
  entry 7). Safe: the model stops where the platform decides. -/
  | outsideWindow (off size : Nat)
  /-- Raised by a host access while `rst` is asserted: "a model gives them no step" (R210, U5; DEDUCED, log entry 8). Safe: stuck. -/
  | heldInReset (off size : Nat)
  deriving DecidableEq, Repr

/-- Why an instruction is refused. -/
inductive Refusal where
  /-- Raised by an arm of `exec` that has no meaning yet (there is none). Safe: the model stops. -/
  | notModelled (mnemonic : String)
  deriving DecidableEq, Repr

/-- A CipherState of zeros: what ZEROIZE leaves (R171), and the value this model names for the tables after reset (R40 leaves them
unspecified, U1 allows 0; DESIGN CHOICE, unsafe, log entry 4). -/
def CipherState.zero : CipherState where
  p := Vector.replicate 18 0
  s := Vector.replicate 4 (Vector.replicate 256 0)

/-- R40, R210, R212: the machine right after reset. -/
def State.reset : State where
  keyValid := false
  done := false
  ovr := false
  err := 0
  doneIe := false
  ovrIe := false
  keyLen := 0
  ndata := 0
  npad := 0
  blkL := 0
  blkR := 0
  key := Vector.replicate 14 0
  cipher := CipherState.zero
  pend := none
  rst := false
  agenda := []
  received := []
  draws := 0

end Sys2Proof.Machine
end

