-- ==== Sys2Proof/Machine/Flags.lean ====
section
/-!
DEFINITION. Machine/Flags.lean: STATUS, INTEN and the error codes as the host sees them, the write-1-to-clear rule, and the
interrupt line (10_state.md R23, R24, R31; 60_exceptions.md R180, R190). No command sets a flag from an arithmetic result (R31).
-/
namespace Sys2Proof.Machine

/-- R180: the names of the error codes. -/
inductive ErrCode where
  /-- 0: no error. -/
  | none
  /-- 1: KEYSCHED with LEN = 0 or LEN > 56. -/
  | invalidKey
  /-- 2: never written by the engine (R181). -/
  | invalidBlockSize
  /-- 3: never written by the engine, the host driver's (R181). -/
  | invalidLength
  /-- 4: UNPAD of a malformed block. -/
  | invalidPadding
  /-- 5: ENCB or DECB with KEYVALID = 0. -/
  | noKey
  /-- 6: any illegal word. -/
  | illegalCmd
  deriving DecidableEq, Repr

/-- R180: the number of an error code. -/
def errNumber (e : ErrCode) : BitVec 4 :=
  match e with
  | .none => 0
  | .invalidKey => 1
  | .invalidBlockSize => 2
  | .invalidLength => 3
  | .invalidPadding => 4
  | .noKey => 5
  | .illegalCmd => 6

/-- R36: BUSY is 1 exactly when a command is pending. -/
def State.busy (s : State) : Bool := s.pend.isSome

/-- A register field of one bit at bit `i`. -/
def bitAt (b : Bool) (i : Nat) : Word := (BitVec.ofBool b).setWidth 32 <<< i

/-- R23: STATUS as it reads. Bits 7:4 and 31:12 read 0. -/
def statusWord (s : State) : Word :=
  bitAt s.busy 0 ||| bitAt s.keyValid 1 ||| bitAt s.done 2 ||| bitAt s.ovr 3 ||| s.err.setWidth 32 <<< 8

/-- R24: INTEN as it reads. Bits 31:2 read 0. -/
def intenWord (s : State) : Word := bitAt s.doneIe 0 ||| bitAt s.ovrIe 1

/-- R23: a write to STATUS clears DONE and OVR where the written bit is 1, and does nothing else. -/
def clearSticky (v : Word) (s : State) : State :=
  { s with
    done := s.done && !v.getLsbD 2
    ovr := s.ovr && !v.getLsbD 3 }

/-- R24: a write to INTEN stores bits 0 and 1. -/
def setInten (v : Word) (s : State) : State :=
  { s with
    doneIe := v.getLsbD 0
    ovrIe := v.getLsbD 1 }

/-- R185: a write that is ignored because a command is pending sets OVR and changes no register. -/
def overrun (s : State) : State := { s with ovr := true }

/-- R190, R39: the level of the interrupt output, a function of STATUS and INTEN. -/
def irq (s : State) : Bool := (s.done && s.doneIe) || (s.ovr && s.ovrIe)

end Sys2Proof.Machine
end

