-- ==== Sys2Proof/Machine/Operands.lean ====
section
/-!
DEFINITION. Machine/Operands.lean: the byte views of words, of the block and of the key (00_scope.md R10; 10_state.md R27, R28;
20_memory.md R52). Every operand of a command but PAD's count is one of these, and implicit (30_encoding.md R74).
-/
namespace Sys2Proof.Machine

/-- R10: `byte_i(w)`, i in 0..3, most significant byte first: `byte_0(w) = w[31:24]`. -/
def byteOf (w : Word) (i : Nat) : Byte := w.extractLsb' (24 - 8 * i) 8

/-- R10: `bytes_be(w) = [w[31:24], w[23:16], w[15:8], w[7:0]]`. -/
def bytesBe (w : Word) : List Byte := [byteOf w 0, byteOf w 1, byteOf w 2, byteOf w 3]

/-- R10: `be32(b0, b1, b2, b3)`, b0 most significant. -/
def be32 (b0 b1 b2 b3 : Byte) : Word :=
  b0.setWidth 32 <<< 24 ||| b1.setWidth 32 <<< 16 ||| b2.setWidth 32 <<< 8 ||| b3.setWidth 32

/-- The word of four bytes of a sequence from index `i` on; a byte past the end is 0. -/
def wordAt (b : List Byte) (i : Nat) : Word :=
  be32 (b.getD i 0) (b.getD (i + 1) 0) (b.getD (i + 2) 0) (b.getD (i + 3) 0)

/-- R27, R52: the bytes b[0..7] of the block held as the two words (L, R). -/
def blockBytes (l r : Word) : List Byte := bytesBe l ++ bytesBe r

/-- R27: writing the block bytes b[0..7] to BLK_L and BLK_R. -/
def setBlockBytes (b : List Byte) (s : State) : State :=
  { s with
    blkL := wordAt b 0
    blkR := wordAt b 4 }

/-- R27: the bytes of the block registers. -/
def stateBlock (s : State) : List Byte := blockBytes s.blkL s.blkR

/-- R28: the stored key byte K[q], q in 0..55: `K[4i + t] = byte_t(KEYi)`. -/
def keyByte (key : Vector Word 14) (q : Nat) : Byte := byteOf (key[q / 4]?.getD 0) (q % 4)

/-- R94: the key bytes K[0 .. n-1]. -/
def keyBytes (key : Vector Word 14) (n : Nat) : List Byte := (List.range n).map (keyByte key)

end Sys2Proof.Machine
end

