-- ==== Sys2Proof/Machine/Ops.lean ====
section
/-!
DEFINITION. Machine/Ops.lean: the named operations over the state: completing a command, which is also what stands in for taking an
exception on this engine (60_exceptions.md R186, R189), and the register window, its map, its reads and its writes (10_state.md R20
to R28; 20_memory.md; 60_exceptions.md R184 to R187).
-/
namespace Sys2Proof.Machine

/-- What every meaning answers. -/
abbrev Answer := Host.Outcome State Fault Refusal

/-- R13, R186: `complete(code)`: ERR <- code, BUSY <- 0, DONE <- 1, pend <- none. -/
def complete (e : ErrCode) (s : State) : State :=
  { s with
    err := errNumber e
    done := true
    pend := none }

/-- R13, R189: `raise <Error>(code)`, which is `complete(code)` with no other effect of the command. The engine has no trap, saves no
context and changes no mode: ERR records the code, and the interrupt line rises if DONEIE = 1. -/
def raise (e : ErrCode) (s : State) : Answer := .next (complete e s)

/-- R20: the registers of the window. -/
inductive Reg where
  | id | cmd | status | inten | keylen | result | blkL | blkR
  /-- KEY0 to KEY13. -/
  | key (i : Fin 14)
  /-- The ten reserved words 0x58 to 0x7C. -/
  | reserved (i : Fin 10)
  deriving DecidableEq, Repr

/-- R20: the byte offset of a register. -/
def regOffset (r : Reg) : Nat :=
  match r with
  | .id => 0x00
  | .cmd => 0x04
  | .status => 0x08
  | .inten => 0x0C
  | .keylen => 0x10
  | .result => 0x14
  | .blkL => 0x18
  | .blkR => 0x1C
  | .key i => 0x20 + 4 * i.val
  | .reserved i => 0x58 + 4 * i.val

/-- R20: the register of the 32-bit word number `w` of the window. -/
def regOfWord (w : Nat) : Option Reg :=
  match w with
  | 0 => some .id
  | 1 => some .cmd
  | 2 => some .status
  | 3 => some .inten
  | 4 => some .keylen
  | 5 => some .result
  | 6 => some .blkL
  | 7 => some .blkR
  | k + 8 =>
    if h : k < 14 then some (.key ⟨k, h⟩)
    else if h' : k - 14 < 10 then some (.reserved ⟨k - 14, h'⟩)
    else none

/-- R20, R53: the register an access of `size` bytes at byte offset `off` reaches; none if the access is not an aligned 32-bit one
(or the offset is outside the window). -/
def regAt (off size : Nat) : Option Reg :=
  if size = Config.accessBytes ∧ off % 4 = 0 then regOfWord (off / 4) else none

/-- R26: RESULT as it reads: NPAD in bits 7:4, NDATA in bits 3:0. -/
def resultWord (s : State) : Word := s.npad.setWidth 32 <<< 4 ||| s.ndata.setWidth 32

/-- R20 to R28: the value a register holds for the host. CMD, KEY0 to KEY13 and the reserved words read 0. -/
def regValue (r : Reg) (s : State) : Word :=
  match r with
  | .id => Config.idValue
  | .cmd => 0
  | .status => statusWord s
  | .inten => intenWord s
  | .keylen => s.keyLen.setWidth 32
  | .result => resultWord s
  | .blkL => s.blkL
  | .blkR => s.blkR
  | .key _ => 0
  | .reserved _ => 0

/-- R187: the registers whose reads are draws while a command is pending. -/
def drawnWhileBusy (r : Reg) : Bool :=
  match r with
  | .blkL => true
  | .blkR => true
  | .result => true
  | .id => false
  | .cmd => false
  | .status => false
  | .inten => false
  | .keylen => false
  | .key _ => false
  | .reserved _ => false

/-- The access gives `x` back to the host. -/
def respond (x : Response) (s : State) : State := { s with received := x :: s.received }

/-- R187, U3: the read gives back `any_u32`, a fresh draw. -/
def respondAny (s : State) : State :=
  { s with
    received := .data (Config.anyU32 s.draws) :: s.received
    draws := s.draws + 1 }

/-- R56, R57, R187: a read of register `r`. It changes no register. -/
def readReg (r : Reg) (s : State) : State :=
  if s.busy && drawnWhileBusy r then respondAny s else respond (.data (regValue r s)) s

/-- R184: acceptance of the command word `c`. -/
def accept (c : Word) (s : State) : State := { s with pend := some c }

/-- R185: a write to CMD, KEYLEN, KEY0 to KEY13, BLK_L or BLK_R is ignored and sets OVR while a command is pending. -/
def unlessBusy (write : State → State) (s : State) : State := if s.busy then overrun s else write s

/-- R25: a write to KEYLEN stores bits 5:0. -/
def setKeyLen (v : Word) (s : State) : State := { s with keyLen := v.setWidth 6 }

/-- R27: a write to BLK_L. -/
def setBlkL (v : Word) (s : State) : State := { s with blkL := v }

/-- R27: a write to BLK_R. -/
def setBlkR (v : Word) (s : State) : State := { s with blkR := v }

/-- R28: a write to KEYi. -/
def setKey (i : Fin 14) (v : Word) (s : State) : State := { s with key := s.key.set i v }

/-- R20 to R28, R57, R58, R184, R185: a write of `v` to register `r`. -/
def writeReg (r : Reg) (v : Word) (s : State) : State :=
  match r with
  | .id => s
  | .cmd => unlessBusy (accept v) s
  | .status => clearSticky v s
  | .inten => setInten v s
  | .keylen => unlessBusy (setKeyLen v) s
  | .result => s
  | .blkL => unlessBusy (setBlkL v) s
  | .blkR => unlessBusy (setBlkR v) s
  | .key i => unlessBusy (setKey i v) s
  | .reserved _ => s

/-- R50, R53, R210: one host access of `size` bytes at offset `off`, doing `act` on the register it reaches. An access of another
width or alignment gets the bus error and changes nothing else (DEDUCED, safe, log entry 6). An offset outside the window is no address of the
engine (DESIGN CHOICE, safe, log entry 7), and an access while `rst` is asserted gets no step (DEDUCED, safe, log entry 8). -/
def access (off size : Nat) (act : Reg → State → State) (s : State) : Answer :=
  if s.rst then .fault (.heldInReset off size)
  else if Config.windowBytes ≤ off then .fault (.outsideWindow off size)
  else
    match regAt off size with
    | some r => .next (act r s)
    | none => .next (respond (.busError off size) s)

/-- R12: `MemRead(off, size)`. -/
def memRead (off size : Nat) (s : State) : Answer := access off size readReg s

/-- R12: `MemWrite(off, size, v)`. -/
def memWrite (off size : Nat) (v : Word) (s : State) : Answer :=
  access off size (fun r => writeReg r v) s

/-- R40, R210, R211: `rst` is asserted: every piece of the engine's state takes its reset value and a pending command is abandoned.
What the host has still to do and has received is the host's, and the draws go on (DESIGN CHOICE, safe, log entry 9). -/
def assertReset (s : State) : State :=
  { State.reset with
    rst := true
    agenda := s.agenda
    received := s.received
    draws := s.draws }

/-- R210: `rst` is released. -/
def releaseReset (s : State) : State := { s with rst := false }

/-- R210: the input `rst` goes to a level. -/
def setRst (asserted : Bool) (s : State) : State := if asserted then assertReset s else releaseReset s

end Sys2Proof.Machine
end

