-- ==== Sys2Proof/Machine/Control.lean ====
section
/-!
DEFINITION. Machine/Control.lean: NOP, ZEROIZE and the outcome of an illegal word (44_control.md R170 to R172).
-/
namespace Sys2Proof.Machine

/-- R170: NOP. -/
def execNop (s : State) : Answer := .next (complete .none s)

/-- R171: the key material and the data registers at 0; OVR and INTEN unchanged. -/
def zeroed (s : State) : State :=
  { s with
    cipher := CipherState.zero
    key := Vector.replicate 14 0
    keyLen := 0
    blkL := 0
    blkR := 0
    ndata := 0
    npad := 0
    keyValid := false }

/-- R171: ZEROIZE. -/
def execZeroize (s : State) : Answer := .next (complete .none (zeroed s))

/-- R172, R77: an illegal word completes with ILLEGAL_CMD and no other effect, whatever makes it illegal. -/
def execIllegal (s : State) : Answer := raise .illegalCmd s

end Sys2Proof.Machine
end

