-- ==== Sys2Proof/Machine/BlockCipher.lean ====
section
/-!
DEFINITION. Machine/BlockCipher.lean: the mixing function F, the block functions EncW and DecW, and the commands ENCB and DECB
(42_block_cipher.md R120 to R131).
-/
namespace Sys2Proof.Machine

/-- R121: a table read with an unsigned byte, which is always in range. -/
def lookup (t : Vector Word 256) (b : Byte) : Word := t[b.toNat]'b.isLt

/-- R120, R122: `F(S, x) = ((S0[a] + S1[b]) xor S2[c]) + S3[d]`, the index bytes taken most significant first. -/
def mix (t : Vector (Vector Word 256) 4) (x : Word) : Word :=
  ((lookup t[0] (byteOf x 0) + lookup t[1] (byteOf x 1)) ^^^ lookup t[2] (byteOf x 2)) + lookup t[3] (byteOf x 3)

/-- R124, R125: one round with whitening index `i`: `L ^= P[i]; R ^= F(S, L); swap`. -/
def feistelRound (k : CipherState) (b : Word × Word) (i : Fin 18) : Word × Word :=
  (b.2 ^^^ mix k.s (b.1 ^^^ k.p[i]), b.1 ^^^ k.p[i])

/-- R124, R125: the rounds in a given order, then "undo the final swap" and whiten R with index `wr` and L with index `wl`. -/
def feistel (k : CipherState) (order : List (Fin 18)) (wr wl : Fin 18) (b : Word × Word) : Word × Word :=
  let x := order.foldl (feistelRound k) b
  (x.2 ^^^ k.p[wl], x.1 ^^^ k.p[wr])

/-- R124: the whitening indices of the 16 encryption rounds. -/
def encOrder : List (Fin 18) := [0, 1, 2, 3, 4, 5, 6, 7, 8, 9, 10, 11, 12, 13, 14, 15]

/-- R125: the whitening indices of the 16 decryption rounds. -/
def decOrder : List (Fin 18) := [17, 16, 15, 14, 13, 12, 11, 10, 9, 8, 7, 6, 5, 4, 3, 2]

/-- R124: `EncW(P, S, L, R)`; the final whitening is `R ^= P[16]`, `L ^= P[17]`. -/
def encW (k : CipherState) (b : Word × Word) : Word × Word := feistel k encOrder 16 17 b

/-- R125: `DecW(P, S, L, R)`; the final whitening is `R ^= P[1]`, `L ^= P[0]`. -/
def decW (k : CipherState) (b : Word × Word) : Word × Word := feistel k decOrder 1 0 b

/-- R126, R130: the block command with block function `f`: NO_KEY without a key, otherwise the block is transformed in place, both
halves read before either is written. -/
def transformBlock (f : CipherState → Word × Word → Word × Word) (s : State) : Answer :=
  if s.keyValid then
    let b := f s.cipher (s.blkL, s.blkR)
    .next (complete .none { s with blkL := b.1, blkR := b.2 })
  else raise .noKey s

/-- R126: ENCB. -/
def execEncb (s : State) : Answer := transformBlock encW s

/-- R130: DECB. -/
def execDecb (s : State) : Answer := transformBlock decW s

end Sys2Proof.Machine
end

