-- ==== Sys2Proof/Machine/KeySchedule.lean ====
section
/-!
DEFINITION. Machine/KeySchedule.lean: the key schedule KS and the command KEYSCHED (40_key_schedule.md R90 to R102). KS is computed
atomically at completion (R38, R99; DEDUCED, safe, log entry 3).
-/
namespace Sys2Proof.Machine

/-- R92, R101: byte `q` of the key read cyclically, `k[q mod n]`. -/
def keyStream (k : List Byte) (q : Nat) : Byte := k.getD (q % k.length) 0

/-- R92: the word XORed into P[i], four key bytes from index 4i on, the first most significant. -/
def keyWord (k : List Byte) (i : Nat) : Word :=
  be32 (keyStream k (4 * i)) (keyStream k (4 * i + 1)) (keyStream k (4 * i + 2)) (keyStream k (4 * i + 3))

/-- R91, R92: the ROM tables with the key mixed into the whitening table; the S tables are not key-mixed. -/
def mixKey (k : List Byte) : CipherState where
  p := Vector.ofFn fun i : Fin 18 => piP[i] ^^^ keyWord k i.val
  s := piS

/-- R97: the state of the chain: the tables as they stand (R96), and the last output block. -/
structure Chain where
  tables : CipherState
  block : Word × Word
  deriving DecidableEq, Repr

/-- R97, R98: write an output block to P[2j] and P[2j+1], L to the even index. -/
def putP (k : CipherState) (j : Fin 9) (b : Word × Word) : CipherState :=
  { k with p := (k.p.set (2 * j.val) b.1 (by omega)).set (2 * j.val + 1) b.2 (by omega) }

/-- R97, R98: write an output block to S[t][2j] and S[t][2j+1], L to the even index. -/
def putS (k : CipherState) (t : Fin 4) (j : Fin 128) (b : Word × Word) : CipherState :=
  { k with s := k.s.set t (((k.s[t]).set (2 * j.val) b.1 (by omega)).set (2 * j.val + 1) b.2 (by omega)) }

/-- R96, R97: one encryption of the chain's block under the tables as they stand, its output stored by `put`. -/
def chainStep (put : CipherState → Word × Word → CipherState) (c : Chain) : Chain :=
  let b := encW c.tables c.block
  { tables := put c.tables b, block := b }

/-- R97: the nine encryptions that replace P. -/
def fillP (c : Chain) : Chain :=
  (List.finRange 9).foldl (fun c j => chainStep (fun k b => putP k j b) c) c

/-- R97: the 128 encryptions that replace S[t]. -/
def fillS (c : Chain) (t : Fin 4) : Chain :=
  (List.finRange 128).foldl (fun c j => chainStep (fun k b => putS k t j b) c) c

/-- R97: the chain starts from the all-zero block. -/
def chainStart (k : CipherState) : Chain := { tables := k, block := (0, 0) }

/-- R97, R98: P, then S[0], S[1], S[2], S[3], one encryption after the other (R99). -/
def replaceTables (k : CipherState) : CipherState :=
  ((List.finRange 4).foldl fillS (fillP (chainStart k))).tables

/-- R90: `KS(k)`. The command applies it only to keys of 1 to 56 bytes (R93). -/
def ks (k : List Byte) : CipherState := replaceTables (mixKey k)

/-- R93: the legal key lengths. -/
def legalKeyLen (n : Nat) : Bool := decide (Config.keyMin ≤ n ∧ n ≤ Config.keyMax)

/-- R94: the key of the key registers, the first LEN stored bytes. -/
def stateKey (s : State) : List Byte := keyBytes s.key s.keyLen.toNat

/-- R95: KEYSCHED. -/
def execKeysched (s : State) : Answer :=
  if legalKeyLen s.keyLen.toNat then
    .next (complete .none { s with cipher := ks (stateKey s), keyValid := true })
  else raise .invalidKey s

end Sys2Proof.Machine
end

