-- ==== Sys2Proof/Machine/Padding.lean ====
section
/-!
DEFINITION. Machine/Padding.lean: the padding functions on byte sequences and the commands PAD r and UNPAD (43_padding.md R140 to
R155).
-/
namespace Sys2Proof.Machine

/-- R140: `pad(d)`: n = 8 - (len(d) mod 8) bytes of value n appended. -/
def padBytes (d : List Byte) : List Byte :=
  let n := Config.blockBytes - d.length % Config.blockBytes
  d ++ List.replicate n (BitVec.ofNat 8 n)

/-- R142: `unpad(p)`; none is InvalidPadding. The empty sequence fails (D21). -/
def unpadBytes (p : List Byte) : Option (List Byte) :=
  match p.getLast? with
  | none => none
  | some last =>
    let n := last.toNat
    if n = 0 ∨ 8 < n ∨ p.length < n then none
    else if (p.drop (p.length - n)).all (· == last) then some (p.take (p.length - n))
    else none

/-- R150: the block bytes after PAD r: b[i] <- 8 - r for i in r..7. -/
def padBlock (r : Nat) (b : List Byte) : List Byte :=
  b.take r ++ List.replicate (8 - r) (BitVec.ofNat 8 (8 - r))

/-- R153: the pad count of a block, n = b[7]; none where UNPAD raises InvalidPadding. -/
def blockPadCount (b : List Byte) : Option Nat :=
  let last := b.getD 7 0
  let n := last.toNat
  if n = 0 ∨ 8 < n then none
  else if (b.drop (8 - n)).all (· == last) then some n
  else none

/-- R150: PAD r. It needs no key. -/
def execPad (r : Nat) (s : State) : Answer :=
  .next (complete .none (setBlockBytes (padBlock r (stateBlock s)) s))

/-- R153: UNPAD. RESULT <- (n << 4) | (8 - n) on success; the block is never modified. -/
def execUnpad (s : State) : Answer :=
  match blockPadCount (stateBlock s) with
  | some n => .next (complete .none { s with npad := BitVec.ofNat 4 n, ndata := BitVec.ofNat 4 (8 - n) })
  | none => raise .invalidPadding s

end Sys2Proof.Machine
end

