-- ==== Sys2Proof/Machine/Turns.lean ====
section
/-!
DEFINITION. Machine/Turns.lean: what one event of the agenda does (00_scope.md R19; 60_exceptions.md R186).
-/
namespace Sys2Proof.Machine

/-- R186: completion of the pending word `c`: decode it, then apply the rule of the decoded command. -/
def completeWord (c : Word) (s : State) : Answer :=
  match decode c with
  | .command i => exec i s
  | .illegal _ => execIllegal s

/-- R19, R186: the engine's turn. It steps only if a command is pending. -/
def engineTurn (s : State) : Answer :=
  match s.pend with
  | some c => completeWord c s
  | none => .next s

/-- R60: one event. -/
def happen (e : Event) (s : State) : Answer :=
  match e with
  | .read off size => memRead off size s
  | .write off size v => memWrite off size v s
  | .engine => engineTurn s
  | .rst asserted => .next (setRst asserted s)

/-- R60, R186: the next event of the total order. When nothing more is to come from outside, it is the engine's turn: a pending
command always completes (weak fairness; DESIGN CHOICE, safe, log entry 2). -/
def nextTurn (s : State) : Answer :=
  match s.agenda with
  | e :: rest => happen e { s with agenda := rest }
  | [] => engineTurn s

/-- The instruction word `w` of `nbits` bits latched as the pending command, and the engine's turn put first. -/
def latchWord (nbits w : Nat) (s : State) : State :=
  { s with
    pend := some (BitVec.ofNat 32 (w % 2 ^ nbits))
    agenda := .engine :: s.agenda }

end Sys2Proof.Machine
end

