-- ==== Sys2Proof/Machine/Step.lean ====
section
/-!
DEFINITION. Machine/Step.lean: one step of the machine, and where its next instruction is fetched.
-/
namespace Sys2Proof.Machine

/-- One step: the next event of the agenda happens (R60). -/
def step (s : State) : Host.Outcome State Fault Refusal := nextTurn s

/-- The engine fetches nothing (R29): the instruction `step` runs next is the word latched at acceptance (R36, R186). So the word is
latched and the engine's turn comes first; nothing else changes (DESIGN CHOICE, safe, log entry 10). -/
def State.withFetchWord (s : State) (nbits w : Nat) : State := latchWord nbits w s

end Sys2Proof.Machine
end

