-- ==== Sys2Proof/Machine/Script.lean ====
section
/-!
DEFINITION. Machine/Script.lean: the host-script lines and pseudo-instructions as lists of events (30_encoding.md R81, R82).
-/
namespace Sys2Proof.Machine

/-- R81, R82: one line of a host script. -/
inductive HostLine where
  /-- A mnemonic: write its command word to CMD. -/
  | command (i : Instr)
  /-- `CMD <hex>`: write the raw word, legal or not, to CMD. -/
  | cmd (c : Word)
  /-- `WR <REG>, <hex32>`. -/
  | wr (r : Reg) (v : Word)
  /-- `RD <REG>`. -/
  | rd (r : Reg)
  /-- `WAIT`: `polls` reads of STATUS before the completion, and the one after it ("any number of polls a WAIT makes is admitted"). -/
  | wait (polls : Nat)
  /-- `RUN <command>`. -/
  | run (i : Instr) (polls : Nat)
  /-- `LDKEY <hex bytes>`. -/
  | ldkey (k : List Byte)
  /-- `LDBLK <16 hex digits>`. -/
  | ldblk (b : List Byte)
  /-- `RDBLK`. -/
  | rdblk
  /-- `CLRDONE`. -/
  | clrDone
  /-- `CLROVR`. -/
  | clrOvr
  deriving DecidableEq, Repr

/-- R81: `MemWrite(off(REG), 4, v)`. -/
def writeTo (r : Reg) (v : Word) : Event := .write (regOffset r) Config.accessBytes v

/-- R81: `MemRead(off(REG), 4)`. -/
def readOf (r : Reg) : Event := .read (regOffset r) Config.accessBytes

/-- R82: WAIT, with the engine's completion at the point where it happens. -/
def waitEvents (polls : Nat) : List Event :=
  List.replicate polls (readOf .status) ++ [.engine, readOf .status]

/-- R82: LDKEY: KEYLEN, then KEYi for i in 0..ceil(n/4)-1; a byte past the key is written as 0. -/
def ldkeyEvents (k : List Byte) : List Event :=
  writeTo .keylen (BitVec.ofNat 32 k.length) ::
    (List.range ((k.length + 3) / 4)).map fun i =>
      .write (0x20 + 4 * i) Config.accessBytes (wordAt k (4 * i))

/-- R82: LDBLK. -/
def ldblkEvents (b : List Byte) : List Event := [writeTo .blkL (wordAt b 0), writeTo .blkR (wordAt b 4)]

/-- R82: RDBLK. -/
def rdblkEvents : List Event := [readOf .blkL, readOf .blkR]

/-- R81, R82: the events of a line. -/
def lineEvents (l : HostLine) : List Event :=
  match l with
  | .command i => [writeTo .cmd (encode i)]
  | .cmd c => [writeTo .cmd c]
  | .wr r v => [writeTo r v]
  | .rd r => [readOf r]
  | .wait polls => waitEvents polls
  | .run i polls => writeTo .cmd (encode i) :: waitEvents polls
  | .ldkey k => ldkeyEvents k
  | .ldblk b => ldblkEvents b
  | .rdblk => rdblkEvents
  | .clrDone => [writeTo .status 0x4]
  | .clrOvr => [writeTo .status 0x8]

/-- The events of a script. -/
def scriptEvents (ls : List HostLine) : List Event := ls.flatMap lineEvents

end Sys2Proof.Machine
end

