-- ==== Sys2Proof/Machine/Stream.lean ====
section
/-!
DEFINITION. Machine/Stream.lean: encrypt_data and decrypt_data as pure functions of a CipherState and a byte sequence, the results
the host procedures of 43_padding.md R158 and R159 have.
-/
namespace Sys2Proof.Machine

/-- Why a host procedure reports failure (R159, R163). -/
inductive HostError where
  /-- R159: the ciphertext's length is not a positive multiple of 8. -/
  | invalidLength
  /-- R159: the padding of the last decrypted block is malformed. -/
  | invalidPadding
  /-- R163: a command completed with this ERR. -/
  | command (err : BitVec 4)
  /-- The engine stopped, or gave back something else than the words the procedure reads. -/
  | bus
  deriving DecidableEq, Repr

/-- The full 8-byte blocks of a sequence, in order. -/
def fullBlocks (d : List Byte) : List (List Byte) :=
  (List.range (d.length / 8)).map fun j => (d.drop (8 * j)).take 8

/-- R124 through the byte order of R27: the encryption of an 8-byte block. -/
def encBlock (k : CipherState) (b : List Byte) : List Byte :=
  let x := encW k (wordAt b 0, wordAt b 4)
  blockBytes x.1 x.2

/-- R125 through the byte order of R27: the decryption of an 8-byte block. -/
def decBlock (k : CipherState) (b : List Byte) : List Byte :=
  let x := decW k (wordAt b 0, wordAt b 4)
  blockBytes x.1 x.2

/-- R158: "pad the input, then transform every consecutive 8-byte block with encrypt_block". -/
def encryptData (k : CipherState) (d : List Byte) : List Byte := (fullBlocks (padBytes d)).flatMap (encBlock k)

/-- R159: InvalidLength, or decrypt every block and unpad; the plaintext and its true length. -/
def decryptData (k : CipherState) (c : List Byte) : Except HostError (List Byte × Nat) :=
  if c.length = 0 ∨ c.length % 8 ≠ 0 then .error .invalidLength
  else
    match unpadBytes ((fullBlocks c).flatMap (decBlock k)) with
    | some d => .ok (d, d.length)
    | none => .error .invalidPadding

end Sys2Proof.Machine
end

