-- ==== Sys2Proof/Machine/Driver.lean ====
section
/-!
DEFINITION. Machine/Driver.lean: the host procedures encrypt_data and decrypt_data run on the engine (43_padding.md R158, R159, R163).
They are host programs (R5 (e)): nothing here is hardware. They use the engine through `step` alone.
-/
namespace Sys2Proof.Machine

/-- `k` steps, stopping at the first fault or refusal. -/
def runSteps : Nat → State → Answer
  | 0, s => .next s
  | k + 1, s =>
    match step s with
    | .next t => runSteps k t
    | .fault r => .fault r
    | .refused r => .refused r

/-- The events `es`, put before whatever else is to come, happen one after the other. -/
def perform (es : List Event) (s : State) : Answer := runSteps es.length { s with agenda := es ++ s.agenda }

/-- What the host has received in `t` that it had not received in `s`, oldest first. -/
def newResponses (s t : State) : List Response :=
  (t.received.take (t.received.length - s.received.length)).reverse

/-- A script run on the engine: what the host receives from it, and the state after it; none if the machine stops. -/
def runScript (ls : List HostLine) (s : State) : Option (List Response × State) :=
  match perform (scriptEvents ls) s with
  | .next t => some (newResponses s t, t)
  | .fault _ => none
  | .refused _ => none

/-- R23: STATUS.ERR of a STATUS word. -/
def errOf (status : Word) : BitVec 4 := status.extractLsb' 8 4

/-- R163: the check that follows every WAIT. -/
def checkErr {α : Type} (status : Word) (x : α) : Except HostError α :=
  if errOf status = 0 then .ok x else .error (.command (errOf status))

/-- LDBLK b; RUN i; RDBLK, with the check of ERR: the block bytes read back. -/
def hostBlock (i : Instr) (b : List Byte) (s : State) : Except HostError (List Byte × State) :=
  match runScript [.ldblk b, .run i 0, .rdblk] s with
  | some ([.data st, .data l, .data r], t) => checkErr st (blockBytes l r, t)
  | _ => .error .bus

/-- `hostBlock` on each block of a list, the outputs joined. -/
def hostBlocks (i : Instr) : List (List Byte) → State → Except HostError (List Byte × State)
  | [], s => .ok ([], s)
  | b :: bs, s =>
    match hostBlock i b s with
    | .error e => .error e
    | .ok (o, t) =>
      match hostBlocks i bs t with
      | .error e => .error e
      | .ok (os, u) => .ok (o ++ os, u)

/-- R158: the last block: LDBLK of the `r` bytes left and arbitrary others; RUN PAD r; RUN ENCB; RDBLK. -/
def hostLastBlock (junk tail : List Byte) (s : State) : Except HostError (List Byte × State) :=
  match runScript
      [.ldblk (tail ++ junk.take (8 - tail.length)), .run (.pad tail.length) 0, .run .encb 0, .rdblk] s with
  | some ([.data st1, .data st2, .data l, .data r], t) =>
    match checkErr st1 () with
    | .error e => .error e
    | .ok _ => checkErr st2 (blockBytes l r, t)
  | _ => .error .bus

/-- R158: encrypt_data on the engine; `junk` supplies the `8 - r` arbitrary bytes of the last block. -/
def hostEncrypt (junk d : List Byte) (s : State) : Except HostError (List Byte × State) :=
  match hostBlocks .encb (fullBlocks d) s with
  | .error e => .error e
  | .ok (out, t) =>
    match hostLastBlock junk (d.drop (8 * (d.length / 8))) t with
    | .error e => .error e
    | .ok (o, u) => .ok (out ++ o, u)

/-- R159: RUN UNPAD on the block in BLK_L, BLK_R; InvalidPadding if ERR = 4; otherwise RESULT.NDATA. -/
def hostUnpad (s : State) : Except HostError (Nat × State) :=
  match runScript [.run .unpad 0] s with
  | some ([.data st], t) =>
    if errOf st = errNumber .invalidPadding then .error .invalidPadding
    else
      match checkErr st (), runScript [.rd .result] t with
      | .ok _, some ([.data res], u) => .ok ((res.extractLsb' 0 4).toNat, u)
      | .ok _, _ => .error .bus
      | .error e, _ => .error e
  | _ => .error .bus

/-- R159: decrypt_data on the engine. InvalidLength is the host's own check; the engine is not used then. -/
def hostDecrypt (c : List Byte) (s : State) : Except HostError ((List Byte × Nat) × State) :=
  if c.length = 0 ∨ c.length % 8 ≠ 0 then .error .invalidLength
  else
    match hostBlocks .decb (fullBlocks c).dropLast s with
    | .error e => .error e
    | .ok (out, t) =>
      match hostBlock .decb ((fullBlocks c).getLastD []) t with
      | .error e => .error e
      | .ok (blk, u) =>
        match hostUnpad u with
        | .error e => .error e
        | .ok (n, v) => .ok ((out ++ blk.take n, 8 * (c.length / 8 - 1) + n), v)

end Sys2Proof.Machine
end

