-- ==== Sys2Proof/Machine/Platform.lean ====
section
/-!
DEFINITION. Machine/Platform.lean: the engine in its platform, for any value of the OPEN parameters (00_scope.md R7): the window at
BFE_BASE, the access policy, the route of the interrupt, and which latency belongs to which command. The engine sees offsets only (R12,
U11) and no master's identity (R66).
-/
namespace Sys2Proof.Machine

/-- What happens on the platform's bus, in its total order (R60, R66): accesses with their master and address, and the engine's own
events. -/
inductive PlatformEvent where
  | read (master address size : Nat)
  | write (master address size : Nat) (v : Word)
  | engine
  | rst (asserted : Bool)
  deriving DecidableEq, Repr

/-- R50, R58, R59, R195: the window offset at which an access of this master to this address reaches the engine; none if the policy
keeps the master away or the address lies outside the window. -/
def windowOffset (pr : Config.Parameters) (master address : Nat) : Option Nat :=
  if pr.bfeAccessPolicy master = true ∧ pr.bfeBase ≤ address ∧ address < pr.bfeBase + Config.windowBytes then
    some (address - pr.bfeBase)
  else none

/-- The event the engine sees. An access that does not reach the window is none: what it gives back is the platform's (R58; DESIGN
CHOICE, safe, log entry 14). -/
def engineEvent (pr : Config.Parameters) (e : PlatformEvent) : Option Event :=
  match e with
  | .read master address size => (windowOffset pr master address).map fun off => .read off size
  | .write master address size v => (windowOffset pr master address).map fun off => .write off size v
  | .engine => some .engine
  | .rst asserted => some (.rst asserted)

/-- The events the engine sees, in order. -/
def engineEvents (pr : Config.Parameters) (es : List PlatformEvent) : List Event := es.filterMap (engineEvent pr)

/-- The engine run through what happens on the platform's bus. -/
def runOnPlatform (pr : Config.Parameters) (es : List PlatformEvent) (s : State) : Answer := perform (engineEvents pr es) s

/-- R190: the inputs of the interrupt controller the engine raises; "the engine's part is the level of `irq` only" (U12). -/
def interruptInputs (pr : Config.Parameters) (s : State) : List Nat := pr.bfeIrqRoute (irq s)

/-- R230: which latency parameter a decoded word has. -/
def latencyOf (pr : Config.Parameters) (d : Decoded) : Nat :=
  match d with
  | .command .keysched => pr.latKs
  | .command .encb => pr.latBlk
  | .command .decb => pr.latBlk
  | .command (.pad _) => pr.latPad
  | .command .unpad => pr.latPad
  | .command .nop => pr.latMisc
  | .command .zeroize => pr.latMisc
  | .illegal _ => pr.latMisc

end Sys2Proof.Machine
end

