-- ==== Sys2Proof/Safety.lean ====
section
/-!
DEFINITION. Safety.lean: what counts as a safe state, and the relations between states that the claims about the whole machine use.
-/
namespace Sys2Proof.Machine

/-- R180, R181: ERR holds one of the codes the engine writes; 2, 3 and 7 to 15 never stand in it. -/
def ErrLegal (s : State) : Prop := s.err = 0 ∨ s.err = 1 ∨ s.err = 4 ∨ s.err = 5 ∨ s.err = 6

/-- R26: RESULT is 0, or NPAD is 1 to 8 and NDATA + NPAD = 8. -/
def ResultLegal (s : State) : Prop :=
  (s.npad = 0 ∧ s.ndata = 0) ∨ (1 ≤ s.npad.toNat ∧ s.npad.toNat ≤ 8 ∧ s.ndata.toNat + s.npad.toNat = 8)

/-- R23: KEYVALID is 1 only when P and S hold the result of the key schedule for some legal key. -/
def KeyValidSound (s : State) : Prop :=
  s.keyValid = true → ∃ k : List Byte, 1 ≤ k.length ∧ k.length ≤ 56 ∧ s.cipher = ks k

/-- R210: while `rst` is asserted every piece of the engine's state has its reset value, but for P and S, which R40 leaves open. That
`rst` is a held level is log entry 9's choice. -/
def ResetHeld (s : State) : Prop := s.rst = true → s = { assertReset s with cipher := s.cipher }

/-- The invariant of the machine. -/
structure Inv (s : State) : Prop where
  errLegal : ErrLegal s
  resultLegal : ResultLegal s
  keyValidSound : KeyValidSound s
  resetHeld : ResetHeld s

/-- A bus access inside the window (R50), of any width and alignment. -/
def Event.isWindowAccess (e : Event) : Bool :=
  match e with
  | .read off _ => decide (off < Config.windowBytes)
  | .write off _ _ => decide (off < Config.windowBytes)
  | .engine => false
  | .rst _ => false

/-- The next step is the engine's turn (R186). -/
def EnginesTurn (s : State) : Prop := s.agenda = [] ∨ ∃ es, s.agenda = .engine :: es

/-- The engine is out of reset and idle: a host procedure may use it (R215). -/
def Idle (s : State) : Prop := s.pend = none ∧ s.rst = false

/-- R40: the two states differ at most in P and S, and not even there if a key is valid. -/
def SameButHiddenTables (s t : State) : Prop :=
  t = { s with cipher := t.cipher } ∧ (s.keyValid = true → t.cipher = s.cipher)

/-- R37: the two states differ at most in the stored key words. -/
def SameButKeys (s t : State) : Prop := t = { s with key := t.key }

/-- Two answers correspond: next states related by `R`, or the same stop. -/
def Corresponds (R : State → State → Prop) (a b : Answer) : Prop :=
  match a, b with
  | .next s, .next t => R s t
  | .fault x, .fault y => x = y
  | .refused x, .refused y => x = y
  | _, _ => False

end Sys2Proof.Machine
end

