-- ==== Sys2Proof/Certificates/Slice0/Obligations.lean ====
section
/-!
DEFINITION. Obligations.lean: what the provers are asked to prove of the model. Each statement's docstring names the rules of spec/ it
formalises. There is no memory on this hardware (R50), so a frame names registers and tables only: a conclusion `t = { s with … }`
says that every field not named in it is unchanged.
-/

open Sys2Proof Sys2Proof.Machine

/-! ## Reset -/

/-- R40: every piece of state has the value the table gives; the row of P and S is left open there and is not stated. -/
def Obligations.ResetLeavesTheSpecifiedValues : Prop :=
  State.reset.keyValid = false ∧ State.reset.done = false ∧ State.reset.ovr = false ∧ State.reset.err = 0 ∧
    State.reset.doneIe = false ∧ State.reset.ovrIe = false ∧ State.reset.keyLen = 0 ∧ resultWord State.reset = 0 ∧
    State.reset.blkL = 0 ∧ State.reset.blkR = 0 ∧ (∀ q, q < 56 → keyByte State.reset.key q = 0) ∧
    State.reset.pend = none ∧ irq State.reset = false ∧ statusWord State.reset = 0 ∧ regValue .id State.reset = 0x42464531

/-- R210: after reset "the engine accepts a command in its next step". -/
def Obligations.AfterResetTheNextCommandIsAccepted : Prop :=
  ∀ (c : Word) (es : List Event),
    step { State.reset with agenda := .write 0x04 4 c :: es } = .next { State.reset with agenda := es, pend := some c }

/-- R210, R211: asserting `rst` gives the engine its reset state from every state, abandons the pending command, and keeps what is
the host's; releasing it changes nothing else. The tables are left open (R40). That `rst` is a level changed by events, and that the
host's side is kept, is log entry 9's choice. -/
def Obligations.ResetAbandonsThePendingCommand : Prop :=
  ∀ (s : State) (es : List Event),
    (s.agenda = .rst true :: es →
      ∃ k : CipherState, step s = .next { State.reset with
        cipher := k
        rst := true
        agenda := es
        received := s.received
        draws := s.draws }) ∧
    (s.agenda = .rst false :: es → step s = .next { s with rst := false, agenda := es })

/-! ## Commands -/

/-- R170: NOP: its word, its one effect, and no other word with OP = 0x0 is a NOP. -/
def Obligations.NopCompletesWithNoEffect : Prop :=
  encode .nop = 0x00000000 ∧
    (∀ s : State, exec .nop s = .next { s with err := 0, done := true, pend := none }) ∧
    (∀ c : Word, opField c = 0 → c ≠ 0 → ∃ why, decode c = .illegal why)

/-- R95: KEYSCHED with a legal LEN replaces the whole CipherState by KS of the first LEN key bytes, sets KEYVALID and completes. -/
def Obligations.KeyschedBuildsTheCipherState : Prop :=
  ∀ s : State, 1 ≤ s.keyLen.toNat → s.keyLen.toNat ≤ 56 →
    exec .keysched s = .next { s with
      cipher := ks (keyBytes s.key s.keyLen.toNat)
      keyValid := true
      err := 0
      done := true
      pend := none }

/-- R93: KEYSCHED with LEN = 0 or LEN > 56 raises InvalidKey and leaves P, S and KEYVALID. -/
def Obligations.KeyschedRefusesIllegalLength : Prop :=
  ∀ s : State, (s.keyLen.toNat = 0 ∨ 56 < s.keyLen.toNat) →
    exec .keysched s = .next { s with err := 1, done := true, pend := none }

/-- R126: ENCB with a key: the block registers hold EncW of the block; everything else but ERR, BUSY and DONE is unchanged. -/
def Obligations.EncbTransformsTheBlock : Prop :=
  ∀ s : State, s.keyValid = true →
    exec .encb s = .next { s with
      blkL := (encW s.cipher (s.blkL, s.blkR)).1
      blkR := (encW s.cipher (s.blkL, s.blkR)).2
      err := 0
      done := true
      pend := none }

/-- R130: DECB with a key. -/
def Obligations.DecbTransformsTheBlock : Prop :=
  ∀ s : State, s.keyValid = true →
    exec .decb s = .next { s with
      blkL := (decW s.cipher (s.blkL, s.blkR)).1
      blkR := (decW s.cipher (s.blkL, s.blkR)).2
      err := 0
      done := true
      pend := none }

/-- R126, R130: a block command without a key reports NO_KEY and leaves the block. -/
def Obligations.BlockCommandsWithoutAKeyReportNoKey : Prop :=
  ∀ (i : Instr) (s : State), (i = .encb ∨ i = .decb) → s.keyValid = false →
    exec i s = .next { s with err := 5, done := true, pend := none }

/-- R150: PAD r, for each of its eight words: bytes r to 7 of the block become 8 - r, bytes 0 to r-1 and everything else but ERR,
BUSY and DONE are unchanged; ARG = 8 to 15 is an illegal word. -/
def Obligations.PadFillsTheFinalBlock : Prop :=
  (∀ (r : Nat) (s : State), r < 8 →
    encode (.pad r) = BitVec.ofNat 32 (0x04 + 0x10 * r) ∧
    ∃ t, exec (.pad r) s = .next t ∧
      (∀ i, i < 8 → (blockBytes t.blkL t.blkR)[i]? =
        if i < r then (blockBytes s.blkL s.blkR)[i]? else some (BitVec.ofNat 8 (8 - r))) ∧
      t = { s with blkL := t.blkL, blkR := t.blkR, err := 0, done := true, pend := none }) ∧
  (∀ a : Nat, 8 ≤ a → a < 16 → ∃ why, decode (BitVec.ofNat 32 (0x04 + 0x10 * a)) = .illegal why)

/-- R153: UNPAD with n the last byte of the block: if n is 1 to 8 and the last n bytes all equal n, RESULT becomes NPAD = n,
NDATA = 8 - n; otherwise INVALID_PADDING and RESULT keeps its value. The block is never modified. -/
def Obligations.UnpadChecksTheFinalBlock : Prop :=
  encode .unpad = 0x00000005 ∧
  ∀ (s : State) (n : Nat), n = (byteOf s.blkR 3).toNat →
    ((1 ≤ n ∧ n ≤ 8 ∧ ∀ i, 8 - n ≤ i → i < 8 → (blockBytes s.blkL s.blkR)[i]? = some (byteOf s.blkR 3)) →
      ∃ t, exec .unpad s = .next t ∧ (resultWord t).toNat = 16 * n + (8 - n) ∧
        t = { s with
          npad := BitVec.ofNat 4 n
          ndata := BitVec.ofNat 4 (8 - n)
          err := 0
          done := true
          pend := none }) ∧
    ((n = 0 ∨ 8 < n ∨ ∃ i, 8 - n ≤ i ∧ i < 8 ∧ (blockBytes s.blkL s.blkR)[i]? ≠ some (byteOf s.blkR 3)) →
      exec .unpad s = .next { s with err := 4, done := true, pend := none })

/-- R171: ZEROIZE: the key material and the data registers at 0, KEYVALID 0, DONE 1, OVR and INTEN unchanged; a block command on the
state it leaves reports NO_KEY. -/
def Obligations.ZeroizeDestroysTheKeyMaterial : Prop :=
  encode .zeroize = 0x00000006 ∧
  ∀ s : State, ∃ t, exec .zeroize s = .next t ∧
    t = { s with
      cipher := t.cipher
      key := t.key
      keyLen := 0
      blkL := 0
      blkR := 0
      ndata := 0
      npad := 0
      keyValid := false
      err := 0
      done := true
      pend := none } ∧
    (∀ i : Fin 18, t.cipher.p[i] = 0) ∧ (∀ (a : Fin 4) (j : Fin 256), (t.cipher.s[a])[j] = 0) ∧
    (∀ q, q < 56 → keyByte t.key q = 0) ∧
    (s.ovr = false → statusWord t = 0x00000004) ∧
    (∀ i, (i = .encb ∨ i = .decb) → exec i t = .next { t with err := 5, done := true, pend := none })

/-- R182: the error codes each command may report, the complete list, each of them reported from some state; an illegal word
reports ILLEGAL_CMD; a write while busy reports no code and sets OVR. -/
def Obligations.ErrorsOfEachCommand : Prop :=
  (∀ (s t : State),
    (exec .nop s = .next t → t.err = 0) ∧
    (exec .keysched s = .next t → t.err = 0 ∨ t.err = 1) ∧
    (exec .encb s = .next t → t.err = 0 ∨ t.err = 5) ∧
    (exec .decb s = .next t → t.err = 0 ∨ t.err = 5) ∧
    (∀ r, exec (.pad r) s = .next t → t.err = 0) ∧
    (exec .unpad s = .next t → t.err = 0 ∨ t.err = 4) ∧
    (exec .zeroize s = .next t → t.err = 0) ∧
    (∀ c why, decode c = .illegal why → completeWord c s = .next t → t.err = 6)) ∧
  (∃ s t, exec .keysched s = .next t ∧ t.err = 1) ∧ (∃ s t, exec .encb s = .next t ∧ t.err = 5) ∧
  (∃ s t, exec .decb s = .next t ∧ t.err = 5) ∧ (∃ s t, exec .unpad s = .next t ∧ t.err = 4) ∧
  (∃ c why s t, decode c = .illegal why ∧ completeWord c s = .next t ∧ t.err = 6) ∧
  (∀ (s : State) (r : Reg) (v : Word) (es : List Event), s.pend ≠ none → s.rst = false →
    (r = .cmd ∨ r = .keylen ∨ r = .blkL ∨ r = .blkR ∨ ∃ i, r = .key i) →
    s.agenda = .write (regOffset r) 4 v :: es → step s = .next { s with agenda := es, ovr := true })

/-- R188: a command that completes with an error changes nothing but ERR, BUSY and DONE, whatever the word. -/
def Obligations.FailedCommandChangesOnlyStatus : Prop :=
  ∀ (c : Word) (s t : State), completeWord c s = .next t → t.err ≠ 0 →
    t = { s with err := t.err, done := true, pend := none }

/-! ## Encoding -/

/-- R75: the fourteen legal words and what each decodes as; every other word of the 2^32 is illegal. -/
def Obligations.FourteenWordsAreLegal : Prop :=
  (∀ (c : Word) (i : Instr), decode c = .command i ↔
    (c, i) ∈ [((0x00 : Word), Instr.nop), (0x01, .keysched), (0x02, .encb), (0x03, .decb), (0x04, .pad 0), (0x14, .pad 1),
      (0x24, .pad 2), (0x34, .pad 3), (0x44, .pad 4), (0x54, .pad 5), (0x64, .pad 6), (0x74, .pad 7), (0x05, .unpad),
      (0x06, .zeroize)]) ∧
  (∀ c : Word, (∃ why, decode c = .illegal why) ↔
    c ∉ [(0x00 : Word), 0x01, 0x02, 0x03, 0x04, 0x14, 0x24, 0x34, 0x44, 0x54, 0x64, 0x74, 0x05, 0x06])

/-- R172: every illegal word completes with ILLEGAL_CMD and no other effect; the four words of the rule's corner cases are illegal. -/
def Obligations.IllegalWordCompletesWithIllegalCmd : Prop :=
  (∀ (s : State) (c : Word), s.pend = some c →
    c ∉ [(0x00 : Word), 0x01, 0x02, 0x03, 0x04, 0x14, 0x24, 0x34, 0x44, 0x54, 0x64, 0x74, 0x05, 0x06] →
    engineTurn s = .next { s with err := 6, done := true, pend := none }) ∧
  (∀ c ∈ [(0x00000010 : Word), 0x00000084, 0x00000102, 0x0000000F], ∃ why, decode c = .illegal why)

/-- R70 to R76: decoding and encoding agree, in both directions: no bit of an encoding is dropped. -/
def Obligations.DecodeAndEncodeAgree : Prop :=
  (∀ i : Instr, i.wellFormed = true → decode (encode i) = .command i) ∧
  (∀ (c : Word) (i : Instr), decode c = .command i → i.wellFormed = true ∧ encode i = c)

/-- R75, R77: a few words of spec/95_test_vectors.md section 7, one of each kind. -/
def Obligations.SampleWordsDecodeAsTheSpecSays : Prop :=
  decode 0x00000001 = .command .keysched ∧ decode 0x00000002 = .command .encb ∧ decode 0x00000074 = .command (.pad 7) ∧
    decode 0x00000006 = .command .zeroize ∧ decode 0x00000007 = .illegal .reservedOp ∧
    decode 0x00000012 = .illegal .argNotZero ∧ decode 0x000000F4 = .illegal .padCount ∧
    decode 0x80000001 = .illegal .reservedBits

/-! ## The lifecycle of a command -/

/-- R186: at the engine's turn, a pending word that decodes to an instruction is exec of it; an illegal word reports 6. Nothing else
is added around exec but that the event is taken off the agenda. With nothing pending the engine's turn changes nothing (R19; log entry
2 for the empty agenda). -/
def Obligations.StepRunsTheDecodedInstruction : Prop :=
  (∀ (s : State) (c : Word), s.pend = some c →
    (∀ i, decode c = .command i →
      (s.agenda = [] → step s = exec i s) ∧
      (∀ es, s.agenda = .engine :: es → step s = exec i { s with agenda := es })) ∧
    (∀ why, decode c = .illegal why →
      (s.agenda = [] → step s = .next { s with err := 6, done := true, pend := none }) ∧
      (∀ es, s.agenda = .engine :: es →
        step s = .next { s with agenda := es, err := 6, done := true, pend := none }))) ∧
  (∀ s : State, s.pend = none →
    (s.agenda = [] → step s = .next s) ∧
    (∀ es, s.agenda = .engine :: es → step s = .next { s with agenda := es }))

/-- R184: acceptance: a write of any word to CMD while BUSY = 0 latches it, BUSY reads 1, and nothing else changes. -/
def Obligations.CmdWriteIsAccepted : Prop :=
  ∀ (s : State) (c : Word) (es : List Event), s.pend = none → s.rst = false → s.agenda = .write 0x04 4 c :: es →
    ∃ t, step s = .next t ∧ t = { s with agenda := es, pend := some c } ∧
      (statusWord s).getLsbD 0 = false ∧ (statusWord t).getLsbD 0 = true

/-- R185: what every write in the window does while a command is pending. -/
def Obligations.WritesWhileBusy : Prop :=
  ∀ (s : State) (c : Word) (off : Nat) (v : Word) (es : List Event),
    s.pend = some c → s.rst = false → s.agenda = .write off 4 v :: es →
    ((off = 0x04 ∨ off = 0x10 ∨ off = 0x18 ∨ off = 0x1C ∨ ∃ i, i < 14 ∧ off = 0x20 + 4 * i) →
      step s = .next { s with agenda := es, ovr := true }) ∧
    (off = 0x08 →
      step s = .next { s with
        agenda := es
        done := s.done && !v.getLsbD 2
        ovr := s.ovr && !v.getLsbD 3 }) ∧
    (off = 0x0C →
      step s = .next { s with agenda := es, doneIe := v.getLsbD 0, ovrIe := v.getLsbD 1 }) ∧
    ((off = 0x00 ∨ off = 0x14 ∨ ∃ i, i < 10 ∧ off = 0x58 + 4 * i) → step s = .next { s with agenda := es })

/-- R185, R64, R186: whatever accesses the host makes while a command is pending, the command completes on the registers as they
were: the two completions differ at most in OVR, INTEN and the host's side. -/
def Obligations.PendingCommandUsesItsOperandsAtAcceptance : Prop :=
  ∀ (es : List Event) (s t u v : State) (c : Word), s.pend = some c → s.rst = false →
    (∀ e ∈ es, e.isWindowAccess = true) → perform es s = .next t →
    engineTurn s = .next u → engineTurn t = .next v →
    t.pend = some c ∧
    v = { u with
      ovr := v.ovr
      doneIe := v.doneIe
      ovrIe := v.ovrIe
      agenda := v.agenda
      received := v.received
      draws := v.draws }

/-- R186: every pending command completes: if nothing but window accesses and engine turns is to come, the engine's turn comes
after at most that many steps, with the same command pending, and completes it. -/
def Obligations.PendingCommandCompletes : Prop :=
  ∀ (s : State) (c : Word), s.pend = some c → s.rst = false →
    (∀ e ∈ s.agenda, e = .engine ∨ e.isWindowAccess = true) →
    ∃ k t u, k ≤ s.agenda.length ∧ runSteps k s = .next t ∧ t.pend = some c ∧ EnginesTurn t ∧
      step t = .next u ∧ u.pend = none ∧ u.done = true

/-- R192: both orders of a write that races a completion: before it the write is lost and sets OVR, after it the write is performed
on the completed state. -/
def Obligations.RacingWriteMayFallOnEitherSide : Prop :=
  ∀ (s : State) (c v : Word) (r : Reg) (es : List Event), s.pend = some c → s.rst = false →
    (r = .cmd ∨ r = .keylen ∨ r = .blkL ∨ r = .blkR ∨ ∃ i, r = .key i) →
    (s.agenda = .write (regOffset r) 4 v :: .engine :: es →
      step s = .next { s with agenda := .engine :: es, ovr := true }) ∧
    (s.agenda = .engine :: .write (regOffset r) 4 v :: es →
      ∃ u w, step s = .next u ∧ u.pend = none ∧ step u = .next w ∧ w.ovr = s.ovr ∧
        (r = .cmd → w = { u with agenda := es, pend := some v }) ∧
        (r = .keylen → w = { u with agenda := es, keyLen := v.setWidth 6 }) ∧
        (r = .blkL → w = { u with agenda := es, blkL := v }) ∧
        (r = .blkR → w = { u with agenda := es, blkR := v }) ∧
        (∀ i, r = .key i → w = { u with agenda := es, key := u.key.set i v }))

/-! ## The register window -/

/-- R20: the map is complete and one to one: each of the 32 words of the window is the offset of exactly one register. R50, R58, R59,
R195: for every value of the OPEN parameters the window stands at BFE_BASE: an access of a master the policy admits, at BFE_BASE + off, is
the access at offset off, whoever the master is; an access the policy keeps away, or to another address, leaves the engine as it was
(what it gives back is the platform's, log entry 14). -/
def Obligations.WindowMapIsComplete : Prop :=
  (∀ r : Reg, regAt (regOffset r) 4 = some r ∧ regOffset r < 128 ∧ regOffset r % 4 = 0) ∧
  (∀ off, off < 128 → off % 4 = 0 → ∃ r, regOffset r = off ∧ regAt off 4 = some r ∧ ∀ r', regOffset r' = off → r' = r) ∧
  (∀ (pr : Config.Parameters) (m a size : Nat) (v : Word) (s : State),
    (∀ off, pr.bfeAccessPolicy m = true → a = pr.bfeBase + off → off < 128 →
      runOnPlatform pr [.read m a size] s = memRead off size s ∧
      runOnPlatform pr [.write m a size v] s = memWrite off size v s) ∧
    (pr.bfeAccessPolicy m = false ∨ a < pr.bfeBase ∨ pr.bfeBase + 128 ≤ a →
      runOnPlatform pr [.read m a size] s = .next s ∧ runOnPlatform pr [.write m a size v] s = .next s))

/-- R25, R27, R28: writes to KEYLEN, BLK_L, BLK_R and KEYi while no command is pending; R26, R57, R58: a write to RESULT or to a
reserved word then changes nothing. -/
def Obligations.DataWritesWhileIdle : Prop :=
  ∀ (s : State) (off : Nat) (v : Word) (es : List Event),
    s.pend = none → s.rst = false → s.agenda = .write off 4 v :: es →
    (off = 0x10 → step s = .next { s with agenda := es, keyLen := v.extractLsb' 0 6 }) ∧
    (off = 0x18 → step s = .next { s with agenda := es, blkL := v }) ∧
    (off = 0x1C → step s = .next { s with agenda := es, blkR := v }) ∧
    (∀ i : Fin 14, off = 0x20 + 4 * i.val →
      ∃ t, step s = .next t ∧ t = { s with agenda := es, key := t.key } ∧
        ∀ q, q < 56 → keyByte t.key q = if q / 4 = i.val then byteOf v (q % 4) else keyByte s.key q) ∧
    ((off = 0x14 ∨ ∃ i, i < 10 ∧ off = 0x58 + 4 * i) → step s = .next { s with agenda := es })

/-- R24: INTEN: how it reads, how it is written, at any time, and its reset value. -/
def Obligations.IntenRegister : Prop :=
  (∀ s : State, (regValue .inten s).toNat = s.doneIe.toNat + 2 * s.ovrIe.toNat) ∧
  regValue .inten State.reset = 0 ∧
  (∀ (s : State) (v : Word) (es : List Event), s.rst = false → s.agenda = .write 0x0C 4 v :: es →
    step s = .next { s with agenda := es, doneIe := v.getLsbD 0, ovrIe := v.getLsbD 1 })

/-- R21: ID reads 0x42464531 at all times, and a write to it changes nothing. -/
def Obligations.IdRegister : Prop :=
  ∀ (s : State) (es : List Event), s.rst = false →
    (s.agenda = .read 0x00 4 :: es →
      step s = .next { s with agenda := es, received := .data 0x42464531 :: s.received }) ∧
    (∀ v, s.agenda = .write 0x00 4 v :: es → step s = .next { s with agenda := es })

/-- R23, R36, R61: the layout of STATUS: BUSY is 1 exactly when a command is pending, reserved bits read 0. -/
def Obligations.StatusWordLayout : Prop :=
  ∀ s : State,
    (statusWord s).getLsbD 0 = s.pend.isSome ∧ (statusWord s).getLsbD 1 = s.keyValid ∧
    (statusWord s).getLsbD 2 = s.done ∧ (statusWord s).getLsbD 3 = s.ovr ∧
    (statusWord s).extractLsb' 4 4 = 0 ∧ (statusWord s).extractLsb' 8 4 = s.err ∧
    (statusWord s).extractLsb' 12 20 = 0

/-- R23, R194: a write to STATUS at any time clears DONE and OVR where its bit is 1 and changes nothing else; clearing both lowers
the interrupt line. -/
def Obligations.StatusWriteClearsStickyBits : Prop :=
  ∀ (s : State) (v : Word) (es : List Event), s.rst = false → s.agenda = .write 0x08 4 v :: es →
    ∃ t, step s = .next t ∧
      t = { s with
        agenda := es
        done := if v.getLsbD 2 then false else s.done
        ovr := if v.getLsbD 3 then false else s.ovr } ∧
      (v.getLsbD 2 = true → v.getLsbD 3 = true → irq t = false)

/-- R20 to R28: what each register reads while no command is pending. -/
def Obligations.ReadsWhileIdle : Prop :=
  ∀ (s : State) (off : Nat) (es : List Event), s.pend = none → s.rst = false → s.agenda = .read off 4 :: es →
    (off = 0x08 → step s = .next { s with agenda := es, received := .data (statusWord s) :: s.received }) ∧
    (off = 0x0C → step s = .next { s with agenda := es, received := .data (intenWord s) :: s.received }) ∧
    (off = 0x10 →
      step s = .next { s with agenda := es, received := .data (s.keyLen.setWidth 32) :: s.received }) ∧
    (off = 0x14 → step s = .next { s with
      agenda := es
      received := .data (BitVec.ofNat 32 (16 * s.npad.toNat + s.ndata.toNat)) :: s.received }) ∧
    (off = 0x18 → step s = .next { s with agenda := es, received := .data s.blkL :: s.received }) ∧
    (off = 0x1C → step s = .next { s with agenda := es, received := .data s.blkR :: s.received }) ∧
    ((off = 0x04 ∨ (∃ i, i < 14 ∧ off = 0x20 + 4 * i) ∨ ∃ i, i < 10 ∧ off = 0x58 + 4 * i) →
      step s = .next { s with agenda := es, received := .data 0 :: s.received })

/-- R187: what reads return while a command is pending; R20, R58: the reserved words read 0 then too. -/
def Obligations.ReadsWhileBusy : Prop :=
  ∀ (s : State) (c : Word) (off : Nat) (es : List Event),
    s.pend = some c → s.rst = false → s.agenda = .read off 4 :: es →
    ((off = 0x14 ∨ off = 0x18 ∨ off = 0x1C) → step s = .next { s with
      agenda := es
      received := .data (Config.anyU32 s.draws) :: s.received
      draws := s.draws + 1 }) ∧
    (off = 0x08 → ∃ w : Word,
      step s = .next { s with agenda := es, received := .data w :: s.received } ∧
      w.getLsbD 0 = true ∧ w.getLsbD 1 = s.keyValid ∧ w.getLsbD 2 = s.done ∧ w.getLsbD 3 = s.ovr ∧
      w.extractLsb' 8 4 = s.err) ∧
    (off = 0x00 → step s = .next { s with agenda := es, received := .data 0x42464531 :: s.received }) ∧
    (off = 0x0C → step s = .next { s with agenda := es, received := .data (intenWord s) :: s.received }) ∧
    (off = 0x10 →
      step s = .next { s with agenda := es, received := .data (s.keyLen.setWidth 32) :: s.received }) ∧
    ((off = 0x04 ∨ (∃ i, i < 14 ∧ off = 0x20 + 4 * i) ∨ ∃ i, i < 10 ∧ off = 0x58 + 4 * i) →
      step s = .next { s with agenda := es, received := .data 0 :: s.received })

/-- R57: no read has a side effect: whatever is read, at whatever width, no register, flag, table or pending command changes. -/
def Obligations.ReadsChangeNoRegister : Prop :=
  ∀ (s t : State) (off size : Nat) (es : List Event), s.agenda = .read off size :: es → step s = .next t →
    t = { s with agenda := es, received := t.received, draws := t.draws }

/-- R53: an access of another width, or at an offset that is not a multiple of 4, gets the bus error and does nothing else. -/
def Obligations.OtherWidthsGetABusError : Prop :=
  ∀ (s : State) (off size : Nat) (es : List Event), s.rst = false → off < 128 → (size ≠ 4 ∨ off % 4 ≠ 0) →
    (s.agenda = .read off size :: es →
      step s = .next { s with agenda := es, received := .busError off size :: s.received }) ∧
    (∀ v, s.agenda = .write off size v :: es →
      step s = .next { s with agenda := es, received := .busError off size :: s.received })

/-- R50, R210 (the model's choice of a stop, log entries 7 and 8): an access outside the window, or while `rst` is asserted, gets no
step. -/
def Obligations.AccessesWithoutAStep : Prop :=
  ∀ (s : State) (off size : Nat) (v : Word) (es : List Event),
    (s.agenda = .read off size :: es ∨ s.agenda = .write off size v :: es) →
    (s.rst = true → step s = .fault (.heldInReset off size)) ∧
    (s.rst = false → 128 ≤ off → step s = .fault (.outsideWindow off size))

/-- R190, R191: writing INTEN recomputes the interrupt line at once and clears no pending bit. -/
def Obligations.InterruptLineFollowsItsEnables : Prop :=
  ∀ (s : State) (v : Word) (es : List Event), s.rst = false → s.agenda = .write 0x0C 4 v :: es →
    ∃ t, step s = .next t ∧ t.done = s.done ∧ t.ovr = s.ovr ∧
      irq t = ((s.done && v.getLsbD 0) || (s.ovr && v.getLsbD 1)) ∧
      (s.done = true → v.getLsbD 0 = true → irq t = true) ∧
      (s.ovr = true → v.getLsbD 1 = true → irq t = true) ∧
      (v.getLsbD 0 = false → v.getLsbD 1 = false → irq t = false)

/-! ## Rules of the whole machine -/

/-- R31, R23: KEYVALID is set only by a KEYSCHED completion with a legal LEN and cleared only by ZEROIZE and reset; ERR is written
only by completions and reset. -/
def Obligations.KeyvalidAndErrAreWrittenOnlyByCompletion : Prop :=
  ∀ s t : State, step s = .next t →
    (s.keyValid = false → t.keyValid = true →
      EnginesTurn s ∧ (∃ c, s.pend = some c ∧ decode c = .command .keysched) ∧
        1 ≤ s.keyLen.toNat ∧ s.keyLen.toNat ≤ 56) ∧
    (s.keyValid = true → t.keyValid = false →
      (EnginesTurn s ∧ ∃ c, s.pend = some c ∧ decode c = .command .zeroize) ∨ ∃ es, s.agenda = .rst true :: es) ∧
    (t.err ≠ s.err → (EnginesTurn s ∧ s.pend ≠ none) ∨ ∃ es, s.agenda = .rst true :: es)

/-- R31: DONE is set only by a completion, OVR only by an ignored write; each is cleared only by a write of 1 to it and by reset. -/
def Obligations.StickyBitsAreSticky : Prop :=
  ∀ s t : State, step s = .next t →
    (s.done = false → t.done = true → EnginesTurn s ∧ s.pend ≠ none) ∧
    (s.done = true → t.done = false →
      (∃ es v, s.agenda = .write 0x08 4 v :: es ∧ v.getLsbD 2 = true) ∨ ∃ es, s.agenda = .rst true :: es) ∧
    (s.ovr = false → t.ovr = true →
      s.pend ≠ none ∧ ∃ es off v, s.agenda = .write off 4 v :: es ∧
        (off = 0x04 ∨ off = 0x10 ∨ off = 0x18 ∨ off = 0x1C ∨ ∃ i, i < 14 ∧ off = 0x20 + 4 * i)) ∧
    (s.ovr = true → t.ovr = false →
      (∃ es v, s.agenda = .write 0x08 4 v :: es ∧ v.getLsbD 3 = true) ∨ ∃ es, s.agenda = .rst true :: es)

/-- R32, R33: between KEYSCHED and ZEROIZE completions no step but reset changes a word of P or S. -/
def Obligations.CipherStateIsReadOnlyBetweenKeys : Prop :=
  ∀ s t : State, step s = .next t →
    t.cipher = s.cipher ∨
    (EnginesTurn s ∧ ∃ c, s.pend = some c ∧ (decode c = .command .keysched ∨ decode c = .command .zeroize)) ∨
    ∃ es, s.agenda = .rst true :: es

/-- R23, R26, R180, R181, R210: the invariant of the machine is kept by every step. Its clause about reset leaves P and S open (R40)
and rests on `rst` being a held level, which is log entry 9's choice. -/
def Obligations.EveryStepKeepsTheInvariant : Prop :=
  ∀ s t : State, Inv s → step s = .next t → Inv t

/-- The invariant holds right after reset. -/
def Obligations.InvariantHoldsAfterReset : Prop := Inv State.reset

/-- R40: "The unspecified CipherState cannot be observed": two states that differ at most in the tables, and only while no key is
valid, step to states that differ at most so; what the host receives, the interrupt line and every stop are the same. -/
def Obligations.TablesAreUnobservableWithoutAKey : Prop :=
  ∀ s t : State, SameButHiddenTables s t →
    irq s = irq t ∧ s.received = t.received ∧ Corresponds SameButHiddenTables (step s) (step t)

/-- R28, R37: the stored key bytes are observable only through a later KEYSCHED: in every other step two states that differ only in
the key words step to states that differ only there. -/
def Obligations.KeyBytesAreUnobservable : Prop :=
  ∀ s t : State, SameButKeys s t →
    ¬ (EnginesTurn s ∧ ∃ c, s.pend = some c ∧ decode c = .command .keysched) →
    irq s = irq t ∧ s.received = t.received ∧ Corresponds SameButKeys (step s) (step t)

/-! ## The cipher -/

/-- R120, R121: F on the word with index bytes a, b, c, d, most significant first. -/
def Obligations.MixingFunction : Prop :=
  ∀ (t : Vector (Vector Word 256) 4) (a b c d : Byte),
    mix t (be32 a b c d) =
      ((t[0][a.toNat]'a.isLt + t[1][b.toNat]'b.isLt) ^^^ t[2][c.toNat]'c.isLt) + t[3][d.toNat]'d.isLt

/-- R124, R125: EncW and DecW, by the values of L and R after each round. -/
def Obligations.BlockFunctionsFollowTheRounds : Prop :=
  ∀ (k : CipherState) (l r : Nat → Word),
    ((∀ i, (h : i < 16) → l (i + 1) = r i ^^^ mix k.s (l i ^^^ k.p[i]) ∧ r (i + 1) = l i ^^^ k.p[i]) →
      encW k (l 0, r 0) = (r 16 ^^^ k.p[17], l 16 ^^^ k.p[16])) ∧
    ((∀ i, (h : i < 16) → l (i + 1) = r i ^^^ mix k.s (l i ^^^ k.p[17 - i]) ∧ r (i + 1) = l i ^^^ k.p[17 - i]) →
      decW k (l 0, r 0) = (r 16 ^^^ k.p[0], l 16 ^^^ k.p[1]))

/-- R127: DecW undoes EncW and EncW undoes DecW for every tables and block, and so do the commands while the CipherState, the key
flag and the block stay as the first command left them. -/
def Obligations.BlockRoundTrip : Prop :=
  (∀ (k : CipherState) (b : Word × Word), decW k (encW k b) = b ∧ encW k (decW k b) = b) ∧
  (∀ (i j : Instr) (s t u : State), (i = .encb ∧ j = .decb ∨ i = .decb ∧ j = .encb) →
    s.keyValid = true → exec i s = .next t →
    u.keyValid = true → u.cipher = t.cipher → u.blkL = t.blkL → u.blkR = t.blkR →
    ∃ v, exec j u = .next v ∧ v.blkL = s.blkL ∧ v.blkR = s.blkR)

/-- R128: EncW and DecW are bijections on blocks for every CipherState. -/
def Obligations.BlockFunctionsAreBijections : Prop :=
  ∀ k : CipherState, Function.Bijective (encW k) ∧ Function.Bijective (decW k)

/-- R91, R92: the tables the chain starts from: the key mixed big-endian and cyclically into PI_P, the S tables as in the ROM. -/
def Obligations.KeyMixingReadsTheKeyCyclically : Prop :=
  ∀ k : List Byte, k ≠ [] →
    (∀ i : Fin 18, (mixKey k).p[i] =
      piP[i] ^^^ be32 (k.getD (4 * i.val % k.length) 0) (k.getD ((4 * i.val + 1) % k.length) 0)
        (k.getD ((4 * i.val + 2) % k.length) 0) (k.getD ((4 * i.val + 3) % k.length) 0)) ∧
    (mixKey k).s[0] = piS0 ∧ (mixKey k).s[1] = piS1 ∧ (mixKey k).s[2] = piS2 ∧ (mixKey k).s[3] = piS3

/-- R98: storing one output block: L at the even index, R at the odd one after it, every other word unchanged. -/
def Obligations.OutputBlockGoesToTwoWords : Prop :=
  (∀ (k : CipherState) (j : Fin 9) (b : Word × Word), (putP k j b).s = k.s ∧
    ∀ i : Fin 18, (putP k j b).p[i] = if i.val = 2 * j.val then b.1 else if i.val = 2 * j.val + 1 then b.2 else k.p[i]) ∧
  (∀ (k : CipherState) (t : Fin 4) (j : Fin 128) (b : Word × Word), (putS k t j b).p = k.p ∧
    ∀ (a : Fin 4) (i : Fin 256), ((putS k t j b).s[a])[i] =
      if a = t ∧ i.val = 2 * j.val then b.1 else if a = t ∧ i.val = 2 * j.val + 1 then b.2 else (k.s[a])[i])

/-- R96 to R99: KS is the chain of 521 encryptions: each encrypts the last output under the tables as they stand, the outputs go to
P and then to S[0], S[1], S[2], S[3] from index 0 upward. -/
def Obligations.KeyScheduleIsTheChain : Prop :=
  ∀ (k : List Byte) (tab : Nat → CipherState) (blk : Nat → Word × Word),
    tab 0 = mixKey k → blk 0 = (0, 0) →
    (∀ m, m < 521 → blk (m + 1) = encW (tab m) (blk m)) →
    (∀ j : Fin 9, tab (j.val + 1) = putP (tab j.val) j (blk (j.val + 1))) →
    (∀ (t : Fin 4) (j : Fin 128),
      tab (9 + 128 * t.val + j.val + 1) = putS (tab (9 + 128 * t.val + j.val)) t j (blk (9 + 128 * t.val + j.val + 1))) →
    ks k = tab 521

/-- R97, R98: the first two whitening words are the encryption of the all-zero block under the key-mixed ROM tables, and no later
iteration replaces them. -/
def Obligations.FirstOutputFillsP0AndP1 : Prop :=
  ∀ k : List Byte, (ks k).p[0] = (encW (mixKey k) (0, 0)).1 ∧ (ks k).p[1] = (encW (mixKey k) (0, 0)).2

/-- R101: two keys whose 72-byte streams are equal give the same CipherState; the rule's two examples. -/
def Obligations.CyclicKeyEquivalence : Prop :=
  (∀ k k' : List Byte, (∀ q, q < 72 → keyStream k q = keyStream k' q) → ks k = ks k') ∧
  ks [0x00] = ks [0x00, 0x00, 0x00, 0x00, 0x00, 0x00, 0x00, 0x00] ∧ ks [0xAB, 0xCD] = ks [0xAB, 0xCD, 0xAB, 0xCD]

/-- R94, R100: two KEYSCHED completions with equal LEN and equal first LEN key bytes, whatever the other key bytes and the rest of
the state hold, give equal CipherStates, and so equal results of ENCB and DECB on every block. -/
def Obligations.KeyScheduleDependsOnlyOnTheKey : Prop :=
  ∀ s s' t t' : State, s.keyLen = s'.keyLen → 1 ≤ s.keyLen.toNat → s.keyLen.toNat ≤ 56 →
    (∀ q, q < s.keyLen.toNat → keyByte s.key q = keyByte s'.key q) →
    exec .keysched s = .next t → exec .keysched s' = .next t' →
    t.cipher = t'.cipher ∧
    (∀ (i : Instr) (l r : Word) (u u' : State), (i = .encb ∨ i = .decb) →
      exec i { t with blkL := l, blkR := r } = .next u → exec i { t' with blkL := l, blkR := r } = .next u' →
      u.blkL = u'.blkL ∧ u.blkR = u'.blkR)

/-! ## Padding and the host procedures -/

/-- R140, R141: pad and its properties. -/
def Obligations.PadProperties : Prop :=
  ∀ (d : List Byte) (n : Nat), n = 8 - d.length % 8 →
    padBytes d = d ++ List.replicate n (BitVec.ofNat 8 n) ∧ 1 ≤ n ∧ n ≤ 8 ∧ (n = 8 ↔ d.length % 8 = 0) ∧
    (padBytes d).length = d.length + n ∧ (padBytes d).length = 8 * (d.length / 8 + 1) ∧
    (∀ x ∈ (padBytes d).drop ((padBytes d).length - n), x.toNat = n) ∧ (padBytes d).take d.length = d ∧
    padBytes [] = List.replicate 8 0x08 ∧ (d.length = 16 → (padBytes d).length = 24)

/-- R142, R143: unpad succeeds exactly on `x ++ rep(n, n)` with n in 1..8, for any x, and then gives x; so it undoes pad. -/
def Obligations.UnpadInvertsPad : Prop :=
  (∀ p d : List Byte, unpadBytes p = some d ↔ ∃ n, 1 ≤ n ∧ n ≤ 8 ∧ p = d ++ List.replicate n (BitVec.ofNat 8 n)) ∧
  (∀ d : List Byte, unpadBytes (padBytes d) = some d)

/-- R151: PAD r leaves in the block exactly bytes 8m to 8m+7 of pad(d), whatever the block held in b[r..7]. -/
def Obligations.PadCommandRealisesPad : Prop :=
  ∀ (d : List Byte) (s : State), (blockBytes s.blkL s.blkR).take (d.length % 8) = d.drop (8 * (d.length / 8)) →
    ∃ t, exec (.pad (d.length % 8)) s = .next t ∧
      blockBytes t.blkL t.blkR = (padBytes d).drop (8 * (d.length / 8)) ∧
      (padBytes d).take (8 * (d.length / 8)) = d.take (8 * (d.length / 8))

/-- R154: UNPAD on the last 8 bytes of a block-aligned sequence fails exactly when unpad fails, and gives its length otherwise. -/
def Obligations.UnpadCommandRealisesUnpad : Prop :=
  ∀ (p : List Byte) (m : Nat) (s : State), 1 ≤ m → p.length = 8 * m →
    blockBytes s.blkL s.blkR = p.drop (8 * m - 8) →
    ∃ t, exec .unpad s = .next t ∧
      (t.err ≠ 0 ↔ unpadBytes p = none) ∧
      (∀ d, unpadBytes p = some d →
        d = p.take (8 * m - 8) ++ (blockBytes s.blkL s.blkR).take t.ndata.toNat ∧
        d.length = 8 * m - 8 + t.ndata.toNat)

/-- R160: decrypting what was encrypted under the same key gives the data back, with its length, for every data, the empty one too;
and the length law. -/
def Obligations.StreamRoundTrip : Prop :=
  ∀ k d : List Byte, 1 ≤ k.length → k.length ≤ 56 →
    decryptData (ks k) (encryptData (ks k) d) = .ok (d, d.length) ∧
    (encryptData (ks k) d).length =
      if d.length % 8 = 0 then d.length + 8 else d.length + (8 - d.length % 8)

/-- R158: the host procedure, run on a keyed idle engine through `step` alone, whatever the arbitrary bytes are, returns
encrypt_data of the engine's CipherState, and leaves the engine keyed and idle. -/
def Obligations.HostEncryptRealisesEncryptData : Prop :=
  ∀ (junk d : List Byte) (s : State), Idle s → s.keyValid = true →
    ∃ t, hostEncrypt junk d s = .ok (encryptData s.cipher d, t) ∧ Idle t ∧ t.keyValid = true ∧ t.cipher = s.cipher

/-- R159: the same of decrypt_data, its two failures included. -/
def Obligations.HostDecryptRealisesDecryptData : Prop :=
  ∀ (c : List Byte) (s : State), Idle s → s.keyValid = true →
    (∀ x, decryptData s.cipher c = .ok x → ∃ t, hostDecrypt c s = .ok (x, t) ∧ Idle t ∧ t.cipher = s.cipher) ∧
    (∀ e, decryptData s.cipher c = .error e → hostDecrypt c s = .error e)
end

