-- ==== Sys2Proof/Laws/BlockCipher.lean ====
section
/-!
SUPPORT. Laws/BlockCipher.lean: unfolding lemmas for the rounds and the block functions (R124, R125).
-/
namespace Sys2Proof.Machine

@[simp] theorem feistelRound_fst (k : CipherState) (b : Word × Word) (i : Fin 18) :
    (feistelRound k b i).1 = b.2 ^^^ mix k.s (b.1 ^^^ k.p[i]) := rfl

@[simp] theorem feistelRound_snd (k : CipherState) (b : Word × Word) (i : Fin 18) :
    (feistelRound k b i).2 = b.1 ^^^ k.p[i] := rfl

/-- The rounds over `i :: is` are the round `i` and then the rounds over `is`. -/
theorem feistel_cons (k : CipherState) (i : Fin 18) (is : List (Fin 18)) (wr wl : Fin 18) (b : Word × Word) :
    feistel k (i :: is) wr wl b = feistel k is wr wl (feistelRound k b i) := rfl

theorem feistel_nil (k : CipherState) (wr wl : Fin 18) (b : Word × Word) :
    feistel k [] wr wl b = (b.2 ^^^ k.p[wl], b.1 ^^^ k.p[wr]) := rfl

/-- ENCB and DECB with a key (R126, R130). -/
theorem transformBlock_keyed {s : State} (h : s.keyValid = true) (f : CipherState → Word × Word → Word × Word) :
    transformBlock f s =
      .next (complete .none { s with
        blkL := (f s.cipher (s.blkL, s.blkR)).1
        blkR := (f s.cipher (s.blkL, s.blkR)).2 }) := by
  simp [transformBlock, h]

/-- ENCB and DECB without a key (R126, R130). -/
theorem transformBlock_unkeyed {s : State} (h : s.keyValid = false) (f : CipherState → Word × Word → Word × Word) :
    transformBlock f s = .next (complete .noKey s) := by
  simp [transformBlock, h, raise]

end Sys2Proof.Machine
end

