-- ==== Sys2Proof/Laws/Decode.lean ====
section
/-!
SUPPORT. Laws/Decode.lean: the fields of a command word (R70) and what they say about the word.
-/
namespace Sys2Proof

/-- R70: a word is its three fields. -/
theorem eq_of_fields {c d : Word} (ho : opField c = opField d) (ha : argField c = argField d)
    (hr : rsvField c = rsvField d) : c = d := by
  apply BitVec.eq_of_getLsbD_eq
  intro i hi
  rcases Nat.lt_or_ge i 4 with h | h
  · have := congrArg (fun x => x.getLsbD i) ho
    simpa [opField, h] using this
  · rcases Nat.lt_or_ge i 8 with h' | h'
    · have := congrArg (fun x => x.getLsbD (i - 4)) ha
      simpa [argField, show i - 4 < 4 by omega, show 4 + (i - 4) = i by omega] using this
    · have := congrArg (fun x => x.getLsbD (i - 8)) hr
      simpa [rsvField, show i - 8 < 24 by omega, show 8 + (i - 8) = i by omega] using this

/-- What `decodeNoArg` accepts. -/
theorem decodeNoArg_command {arg : BitVec 4} {i j : Instr} (h : decodeNoArg arg i = .command j) : arg = 0 ∧ j = i := by
  unfold decodeNoArg at h
  split at h
  · next ha => cases h; exact ⟨ha, rfl⟩
  · cases h

/-- What `decodePad` accepts. -/
theorem decodePad_command {arg : BitVec 4} {j : Instr} (h : decodePad arg = .command j) :
    arg.toNat < 8 ∧ j = .pad arg.toNat := by
  unfold decodePad at h
  split at h
  · next ha => cases h; exact ⟨ha, rfl⟩
  · cases h

/-- R73: a nonzero RSV makes the word illegal whatever OP is. -/
theorem decode_reserved {c : Word} (h : rsvField c ≠ 0) : decode c = .illegal .reservedBits :=
  if_pos h

end Sys2Proof
end

