-- ==== Sys2Proof/Laws/KeySchedule.lean ====
section
/-!
SUPPORT. Laws/KeySchedule.lean: the key length check, the key mixing and one step of the chain (R92, R93, R97).
-/
namespace Sys2Proof.Machine

theorem legalKeyLen_iff (n : Nat) : legalKeyLen n = true ↔ 1 ≤ n ∧ n ≤ 56 := decide_eq_true_iff

/-- R92: one whitening word after key mixing. -/
theorem mixKey_p (k : List Byte) (i : Fin 18) : (mixKey k).p[i] = piP[i] ^^^ keyWord k i.val := by
  simp [mixKey]

@[simp] theorem mixKey_s (k : List Byte) : (mixKey k).s = piS := rfl

@[simp] theorem chainStep_block (put : CipherState → Word × Word → CipherState) (c : Chain) :
    (chainStep put c).block = encW c.tables c.block := rfl

@[simp] theorem chainStep_tables (put : CipherState → Word × Word → CipherState) (c : Chain) :
    (chainStep put c).tables = put c.tables (encW c.tables c.block) := rfl

@[simp] theorem putP_s (k : CipherState) (j : Fin 9) (b : Word × Word) : (putP k j b).s = k.s := rfl

@[simp] theorem putS_p (k : CipherState) (t : Fin 4) (j : Fin 128) (b : Word × Word) : (putS k t j b).p = k.p := rfl

/-- The table an output block is stored to (R98). -/
theorem putS_s_self (k : CipherState) (t : Fin 4) (j : Fin 128) (b : Word × Word) :
    (putS k t j b).s[t] = ((k.s[t]).set (2 * j.val) b.1 (by omega)).set (2 * j.val + 1) b.2 (by omega) := by
  simp [putS]

/-- The other tables (R98). -/
theorem putS_s_other (k : CipherState) {t a : Fin 4} (h : a ≠ t) (j : Fin 128) (b : Word × Word) :
    (putS k t j b).s[a] = k.s[a] := by
  simp only [putS, Fin.getElem_fin, Vector.getElem_set]
  exact if_neg fun e => h (Fin.ext e.symm)

/-- R92, R101: the key is read only through the words of its cyclic stream. -/
theorem mixKey_congr {k k' : List Byte} (h : ∀ i, i < 18 → keyWord k i = keyWord k' i) : mixKey k = mixKey k' := by
  have e : (fun i : Fin 18 => piP[i] ^^^ keyWord k i.val) = fun i : Fin 18 => piP[i] ^^^ keyWord k' i.val :=
    funext fun i => congrArg (piP[i] ^^^ ·) (h i.val i.isLt)
  simp only [mixKey, e]

/-- KS depends only on the key-mixed tables (R97). -/
theorem ks_congr {k k' : List Byte} (h : mixKey k = mixKey k') : ks k = ks k' := congrArg replaceTables h

end Sys2Proof.Machine
end

