-- ==== Sys2Proof/Laws/State.lean ====
section
/-!
SUPPORT. Laws/State.lean: one lemma per field per named update of State, all true by rfl, so that no later proof unfolds a record
update.
-/
namespace Sys2Proof.Machine

/-! `complete` -/

@[simp] theorem complete_keyValid (e : ErrCode) (s : State) : (complete e s).keyValid = s.keyValid := rfl
@[simp] theorem complete_done (e : ErrCode) (s : State) : (complete e s).done = true := rfl
@[simp] theorem complete_ovr (e : ErrCode) (s : State) : (complete e s).ovr = s.ovr := rfl
@[simp] theorem complete_err (e : ErrCode) (s : State) : (complete e s).err = errNumber e := rfl
@[simp] theorem complete_doneIe (e : ErrCode) (s : State) : (complete e s).doneIe = s.doneIe := rfl
@[simp] theorem complete_ovrIe (e : ErrCode) (s : State) : (complete e s).ovrIe = s.ovrIe := rfl
@[simp] theorem complete_keyLen (e : ErrCode) (s : State) : (complete e s).keyLen = s.keyLen := rfl
@[simp] theorem complete_ndata (e : ErrCode) (s : State) : (complete e s).ndata = s.ndata := rfl
@[simp] theorem complete_npad (e : ErrCode) (s : State) : (complete e s).npad = s.npad := rfl
@[simp] theorem complete_blkL (e : ErrCode) (s : State) : (complete e s).blkL = s.blkL := rfl
@[simp] theorem complete_blkR (e : ErrCode) (s : State) : (complete e s).blkR = s.blkR := rfl
@[simp] theorem complete_key (e : ErrCode) (s : State) : (complete e s).key = s.key := rfl
@[simp] theorem complete_cipher (e : ErrCode) (s : State) : (complete e s).cipher = s.cipher := rfl
@[simp] theorem complete_pend (e : ErrCode) (s : State) : (complete e s).pend = none := rfl
@[simp] theorem complete_rst (e : ErrCode) (s : State) : (complete e s).rst = s.rst := rfl
@[simp] theorem complete_agenda (e : ErrCode) (s : State) : (complete e s).agenda = s.agenda := rfl
@[simp] theorem complete_received (e : ErrCode) (s : State) : (complete e s).received = s.received := rfl
@[simp] theorem complete_draws (e : ErrCode) (s : State) : (complete e s).draws = s.draws := rfl

/-! `clearSticky` -/

@[simp] theorem clearSticky_keyValid (v : Word) (s : State) : (clearSticky v s).keyValid = s.keyValid := rfl
@[simp] theorem clearSticky_done (v : Word) (s : State) : (clearSticky v s).done = (s.done && !v.getLsbD 2) := rfl
@[simp] theorem clearSticky_ovr (v : Word) (s : State) : (clearSticky v s).ovr = (s.ovr && !v.getLsbD 3) := rfl
@[simp] theorem clearSticky_err (v : Word) (s : State) : (clearSticky v s).err = s.err := rfl
@[simp] theorem clearSticky_doneIe (v : Word) (s : State) : (clearSticky v s).doneIe = s.doneIe := rfl
@[simp] theorem clearSticky_ovrIe (v : Word) (s : State) : (clearSticky v s).ovrIe = s.ovrIe := rfl
@[simp] theorem clearSticky_keyLen (v : Word) (s : State) : (clearSticky v s).keyLen = s.keyLen := rfl
@[simp] theorem clearSticky_ndata (v : Word) (s : State) : (clearSticky v s).ndata = s.ndata := rfl
@[simp] theorem clearSticky_npad (v : Word) (s : State) : (clearSticky v s).npad = s.npad := rfl
@[simp] theorem clearSticky_blkL (v : Word) (s : State) : (clearSticky v s).blkL = s.blkL := rfl
@[simp] theorem clearSticky_blkR (v : Word) (s : State) : (clearSticky v s).blkR = s.blkR := rfl
@[simp] theorem clearSticky_key (v : Word) (s : State) : (clearSticky v s).key = s.key := rfl
@[simp] theorem clearSticky_cipher (v : Word) (s : State) : (clearSticky v s).cipher = s.cipher := rfl
@[simp] theorem clearSticky_pend (v : Word) (s : State) : (clearSticky v s).pend = s.pend := rfl
@[simp] theorem clearSticky_rst (v : Word) (s : State) : (clearSticky v s).rst = s.rst := rfl
@[simp] theorem clearSticky_agenda (v : Word) (s : State) : (clearSticky v s).agenda = s.agenda := rfl
@[simp] theorem clearSticky_received (v : Word) (s : State) : (clearSticky v s).received = s.received := rfl
@[simp] theorem clearSticky_draws (v : Word) (s : State) : (clearSticky v s).draws = s.draws := rfl

/-! `setInten` -/

@[simp] theorem setInten_keyValid (v : Word) (s : State) : (setInten v s).keyValid = s.keyValid := rfl
@[simp] theorem setInten_done (v : Word) (s : State) : (setInten v s).done = s.done := rfl
@[simp] theorem setInten_ovr (v : Word) (s : State) : (setInten v s).ovr = s.ovr := rfl
@[simp] theorem setInten_err (v : Word) (s : State) : (setInten v s).err = s.err := rfl
@[simp] theorem setInten_doneIe (v : Word) (s : State) : (setInten v s).doneIe = v.getLsbD 0 := rfl
@[simp] theorem setInten_ovrIe (v : Word) (s : State) : (setInten v s).ovrIe = v.getLsbD 1 := rfl
@[simp] theorem setInten_keyLen (v : Word) (s : State) : (setInten v s).keyLen = s.keyLen := rfl
@[simp] theorem setInten_ndata (v : Word) (s : State) : (setInten v s).ndata = s.ndata := rfl
@[simp] theorem setInten_npad (v : Word) (s : State) : (setInten v s).npad = s.npad := rfl
@[simp] theorem setInten_blkL (v : Word) (s : State) : (setInten v s).blkL = s.blkL := rfl
@[simp] theorem setInten_blkR (v : Word) (s : State) : (setInten v s).blkR = s.blkR := rfl
@[simp] theorem setInten_key (v : Word) (s : State) : (setInten v s).key = s.key := rfl
@[simp] theorem setInten_cipher (v : Word) (s : State) : (setInten v s).cipher = s.cipher := rfl
@[simp] theorem setInten_pend (v : Word) (s : State) : (setInten v s).pend = s.pend := rfl
@[simp] theorem setInten_rst (v : Word) (s : State) : (setInten v s).rst = s.rst := rfl
@[simp] theorem setInten_agenda (v : Word) (s : State) : (setInten v s).agenda = s.agenda := rfl
@[simp] theorem setInten_received (v : Word) (s : State) : (setInten v s).received = s.received := rfl
@[simp] theorem setInten_draws (v : Word) (s : State) : (setInten v s).draws = s.draws := rfl

/-! `overrun` -/

@[simp] theorem overrun_keyValid (s : State) : (overrun s).keyValid = s.keyValid := rfl
@[simp] theorem overrun_done (s : State) : (overrun s).done = s.done := rfl
@[simp] theorem overrun_ovr (s : State) : (overrun s).ovr = true := rfl
@[simp] theorem overrun_err (s : State) : (overrun s).err = s.err := rfl
@[simp] theorem overrun_doneIe (s : State) : (overrun s).doneIe = s.doneIe := rfl
@[simp] theorem overrun_ovrIe (s : State) : (overrun s).ovrIe = s.ovrIe := rfl
@[simp] theorem overrun_keyLen (s : State) : (overrun s).keyLen = s.keyLen := rfl
@[simp] theorem overrun_ndata (s : State) : (overrun s).ndata = s.ndata := rfl
@[simp] theorem overrun_npad (s : State) : (overrun s).npad = s.npad := rfl
@[simp] theorem overrun_blkL (s : State) : (overrun s).blkL = s.blkL := rfl
@[simp] theorem overrun_blkR (s : State) : (overrun s).blkR = s.blkR := rfl
@[simp] theorem overrun_key (s : State) : (overrun s).key = s.key := rfl
@[simp] theorem overrun_cipher (s : State) : (overrun s).cipher = s.cipher := rfl
@[simp] theorem overrun_pend (s : State) : (overrun s).pend = s.pend := rfl
@[simp] theorem overrun_rst (s : State) : (overrun s).rst = s.rst := rfl
@[simp] theorem overrun_agenda (s : State) : (overrun s).agenda = s.agenda := rfl
@[simp] theorem overrun_received (s : State) : (overrun s).received = s.received := rfl
@[simp] theorem overrun_draws (s : State) : (overrun s).draws = s.draws := rfl

/-! `respond` -/

@[simp] theorem respond_keyValid (x : Response) (s : State) : (respond x s).keyValid = s.keyValid := rfl
@[simp] theorem respond_done (x : Response) (s : State) : (respond x s).done = s.done := rfl
@[simp] theorem respond_ovr (x : Response) (s : State) : (respond x s).ovr = s.ovr := rfl
@[simp] theorem respond_err (x : Response) (s : State) : (respond x s).err = s.err := rfl
@[simp] theorem respond_doneIe (x : Response) (s : State) : (respond x s).doneIe = s.doneIe := rfl
@[simp] theorem respond_ovrIe (x : Response) (s : State) : (respond x s).ovrIe = s.ovrIe := rfl
@[simp] theorem respond_keyLen (x : Response) (s : State) : (respond x s).keyLen = s.keyLen := rfl
@[simp] theorem respond_ndata (x : Response) (s : State) : (respond x s).ndata = s.ndata := rfl
@[simp] theorem respond_npad (x : Response) (s : State) : (respond x s).npad = s.npad := rfl
@[simp] theorem respond_blkL (x : Response) (s : State) : (respond x s).blkL = s.blkL := rfl
@[simp] theorem respond_blkR (x : Response) (s : State) : (respond x s).blkR = s.blkR := rfl
@[simp] theorem respond_key (x : Response) (s : State) : (respond x s).key = s.key := rfl
@[simp] theorem respond_cipher (x : Response) (s : State) : (respond x s).cipher = s.cipher := rfl
@[simp] theorem respond_pend (x : Response) (s : State) : (respond x s).pend = s.pend := rfl
@[simp] theorem respond_rst (x : Response) (s : State) : (respond x s).rst = s.rst := rfl
@[simp] theorem respond_agenda (x : Response) (s : State) : (respond x s).agenda = s.agenda := rfl
@[simp] theorem respond_received (x : Response) (s : State) : (respond x s).received = x :: s.received := rfl
@[simp] theorem respond_draws (x : Response) (s : State) : (respond x s).draws = s.draws := rfl

/-! `respondAny` -/

@[simp] theorem respondAny_keyValid (s : State) : (respondAny s).keyValid = s.keyValid := rfl
@[simp] theorem respondAny_done (s : State) : (respondAny s).done = s.done := rfl
@[simp] theorem respondAny_ovr (s : State) : (respondAny s).ovr = s.ovr := rfl
@[simp] theorem respondAny_err (s : State) : (respondAny s).err = s.err := rfl
@[simp] theorem respondAny_doneIe (s : State) : (respondAny s).doneIe = s.doneIe := rfl
@[simp] theorem respondAny_ovrIe (s : State) : (respondAny s).ovrIe = s.ovrIe := rfl
@[simp] theorem respondAny_keyLen (s : State) : (respondAny s).keyLen = s.keyLen := rfl
@[simp] theorem respondAny_ndata (s : State) : (respondAny s).ndata = s.ndata := rfl
@[simp] theorem respondAny_npad (s : State) : (respondAny s).npad = s.npad := rfl
@[simp] theorem respondAny_blkL (s : State) : (respondAny s).blkL = s.blkL := rfl
@[simp] theorem respondAny_blkR (s : State) : (respondAny s).blkR = s.blkR := rfl
@[simp] theorem respondAny_key (s : State) : (respondAny s).key = s.key := rfl
@[simp] theorem respondAny_cipher (s : State) : (respondAny s).cipher = s.cipher := rfl
@[simp] theorem respondAny_pend (s : State) : (respondAny s).pend = s.pend := rfl
@[simp] theorem respondAny_rst (s : State) : (respondAny s).rst = s.rst := rfl
@[simp] theorem respondAny_agenda (s : State) : (respondAny s).agenda = s.agenda := rfl
@[simp] theorem respondAny_received (s : State) : (respondAny s).received = .data (Config.anyU32 s.draws) :: s.received := rfl
@[simp] theorem respondAny_draws (s : State) : (respondAny s).draws = s.draws + 1 := rfl

/-! `accept` -/

@[simp] theorem accept_keyValid (c : Word) (s : State) : (accept c s).keyValid = s.keyValid := rfl
@[simp] theorem accept_done (c : Word) (s : State) : (accept c s).done = s.done := rfl
@[simp] theorem accept_ovr (c : Word) (s : State) : (accept c s).ovr = s.ovr := rfl
@[simp] theorem accept_err (c : Word) (s : State) : (accept c s).err = s.err := rfl
@[simp] theorem accept_doneIe (c : Word) (s : State) : (accept c s).doneIe = s.doneIe := rfl
@[simp] theorem accept_ovrIe (c : Word) (s : State) : (accept c s).ovrIe = s.ovrIe := rfl
@[simp] theorem accept_keyLen (c : Word) (s : State) : (accept c s).keyLen = s.keyLen := rfl
@[simp] theorem accept_ndata (c : Word) (s : State) : (accept c s).ndata = s.ndata := rfl
@[simp] theorem accept_npad (c : Word) (s : State) : (accept c s).npad = s.npad := rfl
@[simp] theorem accept_blkL (c : Word) (s : State) : (accept c s).blkL = s.blkL := rfl
@[simp] theorem accept_blkR (c : Word) (s : State) : (accept c s).blkR = s.blkR := rfl
@[simp] theorem accept_key (c : Word) (s : State) : (accept c s).key = s.key := rfl
@[simp] theorem accept_cipher (c : Word) (s : State) : (accept c s).cipher = s.cipher := rfl
@[simp] theorem accept_pend (c : Word) (s : State) : (accept c s).pend = some c := rfl
@[simp] theorem accept_rst (c : Word) (s : State) : (accept c s).rst = s.rst := rfl
@[simp] theorem accept_agenda (c : Word) (s : State) : (accept c s).agenda = s.agenda := rfl
@[simp] theorem accept_received (c : Word) (s : State) : (accept c s).received = s.received := rfl
@[simp] theorem accept_draws (c : Word) (s : State) : (accept c s).draws = s.draws := rfl

/-! `setKeyLen` -/

@[simp] theorem setKeyLen_keyValid (v : Word) (s : State) : (setKeyLen v s).keyValid = s.keyValid := rfl
@[simp] theorem setKeyLen_done (v : Word) (s : State) : (setKeyLen v s).done = s.done := rfl
@[simp] theorem setKeyLen_ovr (v : Word) (s : State) : (setKeyLen v s).ovr = s.ovr := rfl
@[simp] theorem setKeyLen_err (v : Word) (s : State) : (setKeyLen v s).err = s.err := rfl
@[simp] theorem setKeyLen_doneIe (v : Word) (s : State) : (setKeyLen v s).doneIe = s.doneIe := rfl
@[simp] theorem setKeyLen_ovrIe (v : Word) (s : State) : (setKeyLen v s).ovrIe = s.ovrIe := rfl
@[simp] theorem setKeyLen_keyLen (v : Word) (s : State) : (setKeyLen v s).keyLen = v.setWidth 6 := rfl
@[simp] theorem setKeyLen_ndata (v : Word) (s : State) : (setKeyLen v s).ndata = s.ndata := rfl
@[simp] theorem setKeyLen_npad (v : Word) (s : State) : (setKeyLen v s).npad = s.npad := rfl
@[simp] theorem setKeyLen_blkL (v : Word) (s : State) : (setKeyLen v s).blkL = s.blkL := rfl
@[simp] theorem setKeyLen_blkR (v : Word) (s : State) : (setKeyLen v s).blkR = s.blkR := rfl
@[simp] theorem setKeyLen_key (v : Word) (s : State) : (setKeyLen v s).key = s.key := rfl
@[simp] theorem setKeyLen_cipher (v : Word) (s : State) : (setKeyLen v s).cipher = s.cipher := rfl
@[simp] theorem setKeyLen_pend (v : Word) (s : State) : (setKeyLen v s).pend = s.pend := rfl
@[simp] theorem setKeyLen_rst (v : Word) (s : State) : (setKeyLen v s).rst = s.rst := rfl
@[simp] theorem setKeyLen_agenda (v : Word) (s : State) : (setKeyLen v s).agenda = s.agenda := rfl
@[simp] theorem setKeyLen_received (v : Word) (s : State) : (setKeyLen v s).received = s.received := rfl
@[simp] theorem setKeyLen_draws (v : Word) (s : State) : (setKeyLen v s).draws = s.draws := rfl

/-! `setBlkL` -/

@[simp] theorem setBlkL_keyValid (v : Word) (s : State) : (setBlkL v s).keyValid = s.keyValid := rfl
@[simp] theorem setBlkL_done (v : Word) (s : State) : (setBlkL v s).done = s.done := rfl
@[simp] theorem setBlkL_ovr (v : Word) (s : State) : (setBlkL v s).ovr = s.ovr := rfl
@[simp] theorem setBlkL_err (v : Word) (s : State) : (setBlkL v s).err = s.err := rfl
@[simp] theorem setBlkL_doneIe (v : Word) (s : State) : (setBlkL v s).doneIe = s.doneIe := rfl
@[simp] theorem setBlkL_ovrIe (v : Word) (s : State) : (setBlkL v s).ovrIe = s.ovrIe := rfl
@[simp] theorem setBlkL_keyLen (v : Word) (s : State) : (setBlkL v s).keyLen = s.keyLen := rfl
@[simp] theorem setBlkL_ndata (v : Word) (s : State) : (setBlkL v s).ndata = s.ndata := rfl
@[simp] theorem setBlkL_npad (v : Word) (s : State) : (setBlkL v s).npad = s.npad := rfl
@[simp] theorem setBlkL_blkL (v : Word) (s : State) : (setBlkL v s).blkL = v := rfl
@[simp] theorem setBlkL_blkR (v : Word) (s : State) : (setBlkL v s).blkR = s.blkR := rfl
@[simp] theorem setBlkL_key (v : Word) (s : State) : (setBlkL v s).key = s.key := rfl
@[simp] theorem setBlkL_cipher (v : Word) (s : State) : (setBlkL v s).cipher = s.cipher := rfl
@[simp] theorem setBlkL_pend (v : Word) (s : State) : (setBlkL v s).pend = s.pend := rfl
@[simp] theorem setBlkL_rst (v : Word) (s : State) : (setBlkL v s).rst = s.rst := rfl
@[simp] theorem setBlkL_agenda (v : Word) (s : State) : (setBlkL v s).agenda = s.agenda := rfl
@[simp] theorem setBlkL_received (v : Word) (s : State) : (setBlkL v s).received = s.received := rfl
@[simp] theorem setBlkL_draws (v : Word) (s : State) : (setBlkL v s).draws = s.draws := rfl

/-! `setBlkR` -/

@[simp] theorem setBlkR_keyValid (v : Word) (s : State) : (setBlkR v s).keyValid = s.keyValid := rfl
@[simp] theorem setBlkR_done (v : Word) (s : State) : (setBlkR v s).done = s.done := rfl
@[simp] theorem setBlkR_ovr (v : Word) (s : State) : (setBlkR v s).ovr = s.ovr := rfl
@[simp] theorem setBlkR_err (v : Word) (s : State) : (setBlkR v s).err = s.err := rfl
@[simp] theorem setBlkR_doneIe (v : Word) (s : State) : (setBlkR v s).doneIe = s.doneIe := rfl
@[simp] theorem setBlkR_ovrIe (v : Word) (s : State) : (setBlkR v s).ovrIe = s.ovrIe := rfl
@[simp] theorem setBlkR_keyLen (v : Word) (s : State) : (setBlkR v s).keyLen = s.keyLen := rfl
@[simp] theorem setBlkR_ndata (v : Word) (s : State) : (setBlkR v s).ndata = s.ndata := rfl
@[simp] theorem setBlkR_npad (v : Word) (s : State) : (setBlkR v s).npad = s.npad := rfl
@[simp] theorem setBlkR_blkL (v : Word) (s : State) : (setBlkR v s).blkL = s.blkL := rfl
@[simp] theorem setBlkR_blkR (v : Word) (s : State) : (setBlkR v s).blkR = v := rfl
@[simp] theorem setBlkR_key (v : Word) (s : State) : (setBlkR v s).key = s.key := rfl
@[simp] theorem setBlkR_cipher (v : Word) (s : State) : (setBlkR v s).cipher = s.cipher := rfl
@[simp] theorem setBlkR_pend (v : Word) (s : State) : (setBlkR v s).pend = s.pend := rfl
@[simp] theorem setBlkR_rst (v : Word) (s : State) : (setBlkR v s).rst = s.rst := rfl
@[simp] theorem setBlkR_agenda (v : Word) (s : State) : (setBlkR v s).agenda = s.agenda := rfl
@[simp] theorem setBlkR_received (v : Word) (s : State) : (setBlkR v s).received = s.received := rfl
@[simp] theorem setBlkR_draws (v : Word) (s : State) : (setBlkR v s).draws = s.draws := rfl

/-! `setKey` -/

@[simp] theorem setKey_keyValid (i : Fin 14) (v : Word) (s : State) : (setKey i v s).keyValid = s.keyValid := rfl
@[simp] theorem setKey_done (i : Fin 14) (v : Word) (s : State) : (setKey i v s).done = s.done := rfl
@[simp] theorem setKey_ovr (i : Fin 14) (v : Word) (s : State) : (setKey i v s).ovr = s.ovr := rfl
@[simp] theorem setKey_err (i : Fin 14) (v : Word) (s : State) : (setKey i v s).err = s.err := rfl
@[simp] theorem setKey_doneIe (i : Fin 14) (v : Word) (s : State) : (setKey i v s).doneIe = s.doneIe := rfl
@[simp] theorem setKey_ovrIe (i : Fin 14) (v : Word) (s : State) : (setKey i v s).ovrIe = s.ovrIe := rfl
@[simp] theorem setKey_keyLen (i : Fin 14) (v : Word) (s : State) : (setKey i v s).keyLen = s.keyLen := rfl
@[simp] theorem setKey_ndata (i : Fin 14) (v : Word) (s : State) : (setKey i v s).ndata = s.ndata := rfl
@[simp] theorem setKey_npad (i : Fin 14) (v : Word) (s : State) : (setKey i v s).npad = s.npad := rfl
@[simp] theorem setKey_blkL (i : Fin 14) (v : Word) (s : State) : (setKey i v s).blkL = s.blkL := rfl
@[simp] theorem setKey_blkR (i : Fin 14) (v : Word) (s : State) : (setKey i v s).blkR = s.blkR := rfl
@[simp] theorem setKey_key (i : Fin 14) (v : Word) (s : State) : (setKey i v s).key = s.key.set i v := rfl
@[simp] theorem setKey_cipher (i : Fin 14) (v : Word) (s : State) : (setKey i v s).cipher = s.cipher := rfl
@[simp] theorem setKey_pend (i : Fin 14) (v : Word) (s : State) : (setKey i v s).pend = s.pend := rfl
@[simp] theorem setKey_rst (i : Fin 14) (v : Word) (s : State) : (setKey i v s).rst = s.rst := rfl
@[simp] theorem setKey_agenda (i : Fin 14) (v : Word) (s : State) : (setKey i v s).agenda = s.agenda := rfl
@[simp] theorem setKey_received (i : Fin 14) (v : Word) (s : State) : (setKey i v s).received = s.received := rfl
@[simp] theorem setKey_draws (i : Fin 14) (v : Word) (s : State) : (setKey i v s).draws = s.draws := rfl

/-! `setBlockBytes` -/

@[simp] theorem setBlockBytes_keyValid (b : List Byte) (s : State) : (setBlockBytes b s).keyValid = s.keyValid := rfl
@[simp] theorem setBlockBytes_done (b : List Byte) (s : State) : (setBlockBytes b s).done = s.done := rfl
@[simp] theorem setBlockBytes_ovr (b : List Byte) (s : State) : (setBlockBytes b s).ovr = s.ovr := rfl
@[simp] theorem setBlockBytes_err (b : List Byte) (s : State) : (setBlockBytes b s).err = s.err := rfl
@[simp] theorem setBlockBytes_doneIe (b : List Byte) (s : State) : (setBlockBytes b s).doneIe = s.doneIe := rfl
@[simp] theorem setBlockBytes_ovrIe (b : List Byte) (s : State) : (setBlockBytes b s).ovrIe = s.ovrIe := rfl
@[simp] theorem setBlockBytes_keyLen (b : List Byte) (s : State) : (setBlockBytes b s).keyLen = s.keyLen := rfl
@[simp] theorem setBlockBytes_ndata (b : List Byte) (s : State) : (setBlockBytes b s).ndata = s.ndata := rfl
@[simp] theorem setBlockBytes_npad (b : List Byte) (s : State) : (setBlockBytes b s).npad = s.npad := rfl
@[simp] theorem setBlockBytes_blkL (b : List Byte) (s : State) : (setBlockBytes b s).blkL = wordAt b 0 := rfl
@[simp] theorem setBlockBytes_blkR (b : List Byte) (s : State) : (setBlockBytes b s).blkR = wordAt b 4 := rfl
@[simp] theorem setBlockBytes_key (b : List Byte) (s : State) : (setBlockBytes b s).key = s.key := rfl
@[simp] theorem setBlockBytes_cipher (b : List Byte) (s : State) : (setBlockBytes b s).cipher = s.cipher := rfl
@[simp] theorem setBlockBytes_pend (b : List Byte) (s : State) : (setBlockBytes b s).pend = s.pend := rfl
@[simp] theorem setBlockBytes_rst (b : List Byte) (s : State) : (setBlockBytes b s).rst = s.rst := rfl
@[simp] theorem setBlockBytes_agenda (b : List Byte) (s : State) : (setBlockBytes b s).agenda = s.agenda := rfl
@[simp] theorem setBlockBytes_received (b : List Byte) (s : State) : (setBlockBytes b s).received = s.received := rfl
@[simp] theorem setBlockBytes_draws (b : List Byte) (s : State) : (setBlockBytes b s).draws = s.draws := rfl

/-! `zeroed` -/

@[simp] theorem zeroed_keyValid (s : State) : (zeroed s).keyValid = false := rfl
@[simp] theorem zeroed_done (s : State) : (zeroed s).done = s.done := rfl
@[simp] theorem zeroed_ovr (s : State) : (zeroed s).ovr = s.ovr := rfl
@[simp] theorem zeroed_err (s : State) : (zeroed s).err = s.err := rfl
@[simp] theorem zeroed_doneIe (s : State) : (zeroed s).doneIe = s.doneIe := rfl
@[simp] theorem zeroed_ovrIe (s : State) : (zeroed s).ovrIe = s.ovrIe := rfl
@[simp] theorem zeroed_keyLen (s : State) : (zeroed s).keyLen = 0 := rfl
@[simp] theorem zeroed_ndata (s : State) : (zeroed s).ndata = 0 := rfl
@[simp] theorem zeroed_npad (s : State) : (zeroed s).npad = 0 := rfl
@[simp] theorem zeroed_blkL (s : State) : (zeroed s).blkL = 0 := rfl
@[simp] theorem zeroed_blkR (s : State) : (zeroed s).blkR = 0 := rfl
@[simp] theorem zeroed_key (s : State) : (zeroed s).key = Vector.replicate 14 0 := rfl
@[simp] theorem zeroed_cipher (s : State) : (zeroed s).cipher = CipherState.zero := rfl
@[simp] theorem zeroed_pend (s : State) : (zeroed s).pend = s.pend := rfl
@[simp] theorem zeroed_rst (s : State) : (zeroed s).rst = s.rst := rfl
@[simp] theorem zeroed_agenda (s : State) : (zeroed s).agenda = s.agenda := rfl
@[simp] theorem zeroed_received (s : State) : (zeroed s).received = s.received := rfl
@[simp] theorem zeroed_draws (s : State) : (zeroed s).draws = s.draws := rfl

/-! `releaseReset` -/

@[simp] theorem releaseReset_keyValid (s : State) : (releaseReset s).keyValid = s.keyValid := rfl
@[simp] theorem releaseReset_done (s : State) : (releaseReset s).done = s.done := rfl
@[simp] theorem releaseReset_ovr (s : State) : (releaseReset s).ovr = s.ovr := rfl
@[simp] theorem releaseReset_err (s : State) : (releaseReset s).err = s.err := rfl
@[simp] theorem releaseReset_doneIe (s : State) : (releaseReset s).doneIe = s.doneIe := rfl
@[simp] theorem releaseReset_ovrIe (s : State) : (releaseReset s).ovrIe = s.ovrIe := rfl
@[simp] theorem releaseReset_keyLen (s : State) : (releaseReset s).keyLen = s.keyLen := rfl
@[simp] theorem releaseReset_ndata (s : State) : (releaseReset s).ndata = s.ndata := rfl
@[simp] theorem releaseReset_npad (s : State) : (releaseReset s).npad = s.npad := rfl
@[simp] theorem releaseReset_blkL (s : State) : (releaseReset s).blkL = s.blkL := rfl
@[simp] theorem releaseReset_blkR (s : State) : (releaseReset s).blkR = s.blkR := rfl
@[simp] theorem releaseReset_key (s : State) : (releaseReset s).key = s.key := rfl
@[simp] theorem releaseReset_cipher (s : State) : (releaseReset s).cipher = s.cipher := rfl
@[simp] theorem releaseReset_pend (s : State) : (releaseReset s).pend = s.pend := rfl
@[simp] theorem releaseReset_rst (s : State) : (releaseReset s).rst = false := rfl
@[simp] theorem releaseReset_agenda (s : State) : (releaseReset s).agenda = s.agenda := rfl
@[simp] theorem releaseReset_received (s : State) : (releaseReset s).received = s.received := rfl
@[simp] theorem releaseReset_draws (s : State) : (releaseReset s).draws = s.draws := rfl

/-! `assertReset` -/

@[simp] theorem assertReset_keyValid (s : State) : (assertReset s).keyValid = false := rfl
@[simp] theorem assertReset_done (s : State) : (assertReset s).done = false := rfl
@[simp] theorem assertReset_ovr (s : State) : (assertReset s).ovr = false := rfl
@[simp] theorem assertReset_err (s : State) : (assertReset s).err = 0 := rfl
@[simp] theorem assertReset_doneIe (s : State) : (assertReset s).doneIe = false := rfl
@[simp] theorem assertReset_ovrIe (s : State) : (assertReset s).ovrIe = false := rfl
@[simp] theorem assertReset_keyLen (s : State) : (assertReset s).keyLen = 0 := rfl
@[simp] theorem assertReset_ndata (s : State) : (assertReset s).ndata = 0 := rfl
@[simp] theorem assertReset_npad (s : State) : (assertReset s).npad = 0 := rfl
@[simp] theorem assertReset_blkL (s : State) : (assertReset s).blkL = 0 := rfl
@[simp] theorem assertReset_blkR (s : State) : (assertReset s).blkR = 0 := rfl
@[simp] theorem assertReset_key (s : State) : (assertReset s).key = Vector.replicate 14 0 := rfl
@[simp] theorem assertReset_cipher (s : State) : (assertReset s).cipher = CipherState.zero := rfl
@[simp] theorem assertReset_pend (s : State) : (assertReset s).pend = none := rfl
@[simp] theorem assertReset_rst (s : State) : (assertReset s).rst = true := rfl
@[simp] theorem assertReset_agenda (s : State) : (assertReset s).agenda = s.agenda := rfl
@[simp] theorem assertReset_received (s : State) : (assertReset s).received = s.received := rfl
@[simp] theorem assertReset_draws (s : State) : (assertReset s).draws = s.draws := rfl

/-! `withFetchWord` -/

@[simp] theorem withFetchWord_keyValid (s : State) (nbits w : Nat) : (s.withFetchWord nbits w).keyValid = s.keyValid := rfl
@[simp] theorem withFetchWord_done (s : State) (nbits w : Nat) : (s.withFetchWord nbits w).done = s.done := rfl
@[simp] theorem withFetchWord_ovr (s : State) (nbits w : Nat) : (s.withFetchWord nbits w).ovr = s.ovr := rfl
@[simp] theorem withFetchWord_err (s : State) (nbits w : Nat) : (s.withFetchWord nbits w).err = s.err := rfl
@[simp] theorem withFetchWord_doneIe (s : State) (nbits w : Nat) : (s.withFetchWord nbits w).doneIe = s.doneIe := rfl
@[simp] theorem withFetchWord_ovrIe (s : State) (nbits w : Nat) : (s.withFetchWord nbits w).ovrIe = s.ovrIe := rfl
@[simp] theorem withFetchWord_keyLen (s : State) (nbits w : Nat) : (s.withFetchWord nbits w).keyLen = s.keyLen := rfl
@[simp] theorem withFetchWord_ndata (s : State) (nbits w : Nat) : (s.withFetchWord nbits w).ndata = s.ndata := rfl
@[simp] theorem withFetchWord_npad (s : State) (nbits w : Nat) : (s.withFetchWord nbits w).npad = s.npad := rfl
@[simp] theorem withFetchWord_blkL (s : State) (nbits w : Nat) : (s.withFetchWord nbits w).blkL = s.blkL := rfl
@[simp] theorem withFetchWord_blkR (s : State) (nbits w : Nat) : (s.withFetchWord nbits w).blkR = s.blkR := rfl
@[simp] theorem withFetchWord_key (s : State) (nbits w : Nat) : (s.withFetchWord nbits w).key = s.key := rfl
@[simp] theorem withFetchWord_cipher (s : State) (nbits w : Nat) : (s.withFetchWord nbits w).cipher = s.cipher := rfl
@[simp] theorem withFetchWord_pend (s : State) (nbits w : Nat) : (s.withFetchWord nbits w).pend = some (BitVec.ofNat 32 (w % 2 ^ nbits)) := rfl
@[simp] theorem withFetchWord_rst (s : State) (nbits w : Nat) : (s.withFetchWord nbits w).rst = s.rst := rfl
@[simp] theorem withFetchWord_agenda (s : State) (nbits w : Nat) : (s.withFetchWord nbits w).agenda = .engine :: s.agenda := rfl
@[simp] theorem withFetchWord_received (s : State) (nbits w : Nat) : (s.withFetchWord nbits w).received = s.received := rfl
@[simp] theorem withFetchWord_draws (s : State) (nbits w : Nat) : (s.withFetchWord nbits w).draws = s.draws := rfl

/-! `busy` -/

@[simp] theorem complete_busy (e : ErrCode) (s : State) : (complete e s).busy = false := rfl
@[simp] theorem clearSticky_busy (v : Word) (s : State) : (clearSticky v s).busy = s.busy := rfl
@[simp] theorem setInten_busy (v : Word) (s : State) : (setInten v s).busy = s.busy := rfl
@[simp] theorem overrun_busy (s : State) : (overrun s).busy = s.busy := rfl
@[simp] theorem respond_busy (x : Response) (s : State) : (respond x s).busy = s.busy := rfl
@[simp] theorem respondAny_busy (s : State) : (respondAny s).busy = s.busy := rfl
@[simp] theorem accept_busy (c : Word) (s : State) : (accept c s).busy = true := rfl
@[simp] theorem setKeyLen_busy (v : Word) (s : State) : (setKeyLen v s).busy = s.busy := rfl
@[simp] theorem setBlkL_busy (v : Word) (s : State) : (setBlkL v s).busy = s.busy := rfl
@[simp] theorem setBlkR_busy (v : Word) (s : State) : (setBlkR v s).busy = s.busy := rfl
@[simp] theorem setKey_busy (i : Fin 14) (v : Word) (s : State) : (setKey i v s).busy = s.busy := rfl
@[simp] theorem setBlockBytes_busy (b : List Byte) (s : State) : (setBlockBytes b s).busy = s.busy := rfl
@[simp] theorem zeroed_busy (s : State) : (zeroed s).busy = s.busy := rfl
@[simp] theorem releaseReset_busy (s : State) : (releaseReset s).busy = s.busy := rfl
@[simp] theorem assertReset_busy (s : State) : (assertReset s).busy = false := rfl
@[simp] theorem withFetchWord_busy (s : State) (nbits w : Nat) : (s.withFetchWord nbits w).busy = true := rfl

theorem busy_of_pend_some {s : State} {c : Word} (h : s.pend = some c) : s.busy = true := by
  simp [State.busy, h]

theorem busy_of_pend_none {s : State} (h : s.pend = none) : s.busy = false := by
  simp [State.busy, h]

end Sys2Proof.Machine
end

