-- ==== Sys2Proof/Laws/Operands.lean ====
section
/-!
SUPPORT. Laws/Operands.lean: the byte views of words and of the block, and packing them back (R10, R27).
-/
namespace Sys2Proof.Machine

/-- R10: the bits of `be32`. -/
theorem getLsbD_be32 (a b c d : Byte) (i : Nat) :
    (be32 a b c d).getLsbD i =
      if i < 8 then d.getLsbD i
      else if i < 16 then c.getLsbD (i - 8)
      else if i < 24 then b.getLsbD (i - 16)
      else a.getLsbD (i - 24) := by
  have ha := fun j (h : 8 ≤ j) => BitVec.getLsbD_of_ge a j h
  have hb := fun j (h : 8 ≤ j) => BitVec.getLsbD_of_ge b j h
  have hc := fun j (h : 8 ≤ j) => BitVec.getLsbD_of_ge c j h
  have hd := fun j (h : 8 ≤ j) => BitVec.getLsbD_of_ge d j h
  simp only [be32, BitVec.getLsbD_or, BitVec.getLsbD_shiftLeft, BitVec.getLsbD_setWidth]
  split_ifs with h1 h2 h3
  · simp [show i < 32 by omega, show i < 16 by omega, show i < 24 by omega, h1]
  · simp [show i < 32 by omega, h1, h2, show i < 24 by omega, hd i (by omega), show i - 8 < 32 by omega]
  · simp [show i < 32 by omega, h1, h2, h3, hd i (by omega), hc (i - 8) (by omega), show i - 16 < 32 by omega]
  · rcases Nat.lt_or_ge i 32 with h | h
    · simp [h, h1, h2, h3, hd i (by omega), hc (i - 8) (by omega), hb (i - 16) (by omega), show i - 24 < 32 by omega]
    · simp [h1, h2, h3, hd i (by omega), hc (i - 8) (by omega), hb (i - 16) (by omega), ha (i - 24) (by omega)]

/-- R10: the bits of `byte_i`. -/
theorem getLsbD_byteOf (w : Word) (i j : Nat) :
    (byteOf w i).getLsbD j = (decide (j < 8) && w.getLsbD (24 - 8 * i + j)) := by
  simp [byteOf]

@[simp] theorem byteOf_be32_zero (a b c d : Byte) : byteOf (be32 a b c d) 0 = a := by
  apply BitVec.eq_of_getLsbD_eq
  intro i hi
  rw [getLsbD_byteOf, getLsbD_be32, if_neg (by omega), if_neg (by omega), if_neg (by omega)]
  simp [hi]

@[simp] theorem byteOf_be32_one (a b c d : Byte) : byteOf (be32 a b c d) 1 = b := by
  apply BitVec.eq_of_getLsbD_eq
  intro i hi
  rw [getLsbD_byteOf, getLsbD_be32, if_neg (by omega), if_neg (by omega), if_pos (by omega)]
  simp [hi]

@[simp] theorem byteOf_be32_two (a b c d : Byte) : byteOf (be32 a b c d) 2 = c := by
  apply BitVec.eq_of_getLsbD_eq
  intro i hi
  rw [getLsbD_byteOf, getLsbD_be32, if_neg (by omega), if_pos (by omega)]
  simp [hi]

@[simp] theorem byteOf_be32_three (a b c d : Byte) : byteOf (be32 a b c d) 3 = d := by
  apply BitVec.eq_of_getLsbD_eq
  intro i hi
  rw [getLsbD_byteOf, getLsbD_be32, if_pos (by omega)]
  simp [hi]

@[simp] theorem bytesBe_be32 (a b c d : Byte) : bytesBe (be32 a b c d) = [a, b, c, d] := by
  simp [bytesBe]

/-- Packing the four bytes of a word gives the word. -/
@[simp] theorem be32_byteOf (w : Word) : be32 (byteOf w 0) (byteOf w 1) (byteOf w 2) (byteOf w 3) = w := by
  apply BitVec.eq_of_getLsbD_eq
  intro i hi
  rw [getLsbD_be32]
  simp only [getLsbD_byteOf]
  split_ifs with h1 h2 h3
  · simp [h1]
  · simp [show i - 8 < 8 by omega, show 8 + (i - 8) = i by omega]
  · simp [show i - 16 < 8 by omega, show 16 + (i - 16) = i by omega]
  · simp [show i - 24 < 8 by omega, show 24 + (i - 24) = i by omega]

@[simp] theorem length_bytesBe (w : Word) : (bytesBe w).length = 4 := rfl

@[simp] theorem length_blockBytes (l r : Word) : (blockBytes l r).length = 8 := rfl

/-- The left word of the block's bytes (R27). -/
@[simp] theorem wordAt_blockBytes_zero (l r : Word) : wordAt (blockBytes l r) 0 = l := by
  simp [wordAt, blockBytes, bytesBe]

/-- The right word of the block's bytes (R27). -/
@[simp] theorem wordAt_blockBytes_four (l r : Word) : wordAt (blockBytes l r) 4 = r := by
  simp [wordAt, blockBytes, bytesBe]

/-- A sequence of eight bytes is the block of its two words. -/
theorem blockBytes_wordAt {b : List Byte} (h : b.length = 8) : blockBytes (wordAt b 0) (wordAt b 4) = b := by
  match b, h with
  | [b0, b1, b2, b3, b4, b5, b6, b7], _ => simp [wordAt, blockBytes]

/-- Writing eight bytes to the block and reading them back. -/
theorem stateBlock_setBlockBytes {b : List Byte} (h : b.length = 8) (s : State) :
    stateBlock (setBlockBytes b s) = b := blockBytes_wordAt h

@[simp] theorem length_stateBlock (s : State) : (stateBlock s).length = 8 := rfl

@[simp] theorem length_keyBytes (key : Vector Word 14) (n : Nat) : (keyBytes key n).length = n := by
  simp [keyBytes]

/-- Byte `q` of the key of the key registers (R28, R94). -/
theorem keyBytes_getElem? (key : Vector Word 14) (n q : Nat) :
    (keyBytes key n)[q]? = if q < n then some (keyByte key q) else none := by
  by_cases h : q < n <;> simp [keyBytes, h]

end Sys2Proof.Machine
end

