-- ==== Sys2Proof/Laws/FastSchedule.lean ====
section
/-!
SUPPORT. Laws/FastSchedule.lean: the key schedule over tables packed into natural numbers, which the kernel can evaluate, and its
agreement with `ks` and `encW` (R92, R97, R124).
-/
namespace Sys2Proof.Machine

/-! ## The packed form -/

/-- `k x`, with `x` evaluated to a numeral first. -/
def force {α : Type} (x : Nat) (k : Nat → α) : α := Nat.rec (k 0) (fun n _ => k (Nat.succ n)) x

theorem force_eq {α : Type} (x : Nat) (k : Nat → α) : force x k = k x := by
  cases x <;> rfl

/-- Word `i` of a packed table. -/
def look (t i : Nat) : Nat := (t >>> (32 * i)) % 2 ^ 32

/-- A list of words packed, the first word lowest. -/
def pack (l : List Word) : Nat := l.foldr (fun w acc => w.toNat + 2 ^ 32 * acc) 0

/-- A packed table with two words replaced. -/
def putTwo (t i l r : Nat) : Nat :=
  t ^^^ ((look t i ^^^ l) <<< (32 * i)) ^^^ ((look t (i + 1) ^^^ r) <<< (32 * (i + 1)))

/-- F over packed tables (R120). -/
def mixPacked (s0 s1 s2 s3 x : Nat) : Nat :=
  ((((look s0 (x >>> 24 % 256) + look s1 (x >>> 16 % 256)) % 2 ^ 32) ^^^ look s2 (x >>> 8 % 256)) +
    look s3 (x % 256)) % 2 ^ 32

/-- `n` rounds; `p` holds the whitening words still to be used, the next one lowest. -/
def roundsPacked {α : Type} (s0 s1 s2 s3 : Nat) (k : Nat → Nat → Nat → α) : Nat → Nat → Nat → Nat → α
  | 0, p, l, r => k p l r
  | n + 1, p, l, r =>
    force (l ^^^ p % 2 ^ 32) fun x =>
      force (r ^^^ mixPacked s0 s1 s2 s3 x) fun y =>
        force (p >>> 32) fun q => roundsPacked s0 s1 s2 s3 k n q y x

/-- EncW over packed tables (R124). -/
def encPacked {α : Type} (p s0 s1 s2 s3 l r : Nat) (k : Nat → Nat → α) : α :=
  roundsPacked s0 s1 s2 s3
    (fun q l r => force (r ^^^ (q >>> 32) % 2 ^ 32) fun a => force (l ^^^ q % 2 ^ 32) fun b => k a b) 16 p l r

/-- The last `n` of the `m` encryptions that replace one table. -/
def fillPacked {α : Type} (enc : Nat → Nat → Nat → (Nat → Nat → α) → α) (m : Nat) (k : Nat → Nat → Nat → α) :
    Nat → Nat → Nat → Nat → α
  | 0, t, l, r => k t l r
  | n + 1, t, l, r =>
    enc t l r fun l r => force (putTwo t (2 * (m - (n + 1))) l r) fun t => fillPacked enc m k n t l r

/-- The replacement of all five tables (R97). -/
def replacePacked {α : Type} (p s0 s1 s2 s3 : Nat) (k : Nat → Nat → Nat → Nat → Nat → α) : α :=
  fillPacked (fun p l r => encPacked p s0 s1 s2 s3 l r) 9
    (fun p l r =>
      fillPacked (fun s0 l r => encPacked p s0 s1 s2 s3 l r) 128
        (fun s0 l r =>
          fillPacked (fun s1 l r => encPacked p s0 s1 s2 s3 l r) 128
            (fun s1 l r =>
              fillPacked (fun s2 l r => encPacked p s0 s1 s2 s3 l r) 128
                (fun s2 l r =>
                  fillPacked (fun s3 l r => encPacked p s0 s1 s2 s3 l r) 128 (fun s3 _ _ => k p s0 s1 s2 s3) 128 s3 l r)
                128 s2 l r)
            128 s1 l r)
        128 s0 l r)
    9 p 0 0

/-- The key schedule, then one encryption: does block `b` encrypt to `c` under key `k`? -/
def encryptsTo (k : List Byte) (b c : Word × Word) : Bool :=
  force (pack (mixKey k).p.toList) fun p =>
    force (pack piS0.toList) fun s0 =>
      force (pack piS1.toList) fun s1 =>
        force (pack piS2.toList) fun s2 =>
          force (pack piS3.toList) fun s3 =>
            replacePacked p s0 s1 s2 s3 fun p s0 s1 s2 s3 =>
              encPacked p s0 s1 s2 s3 b.1.toNat b.2.toNat fun l r => l == c.1.toNat && r == c.2.toNat

/-! ## Packed tables -/

/-- `t` holds the words of `v`. -/
def Packs {n : Nat} (t : Nat) (v : Vector Word n) : Prop := ∀ i, (h : i < n) → look t i = v[i].toNat

theorem look_lt (t i : Nat) : look t i < 2 ^ 32 := Nat.mod_lt _ (by decide)

theorem look_pack (l : List Word) (i : Nat) (h : i < l.length) : look (pack l) i = l[i].toNat := by
  induction l generalizing i with
  | nil => simp at h
  | cons w ws ih =>
    have hw := w.isLt
    cases i with
    | zero =>
      simp only [look, pack, List.foldr_cons, Nat.mul_zero, Nat.shiftRight_zero, List.getElem_cons_zero]
      omega
    | succ i =>
      have hs : i < ws.length := by simpa using h
      have e : (w.toNat + 2 ^ 32 * pack ws) >>> 32 = pack ws := by
        rw [Nat.shiftRight_eq_div_pow]
        omega
      have e' : pack (w :: ws) >>> (32 * (i + 1)) = pack ws >>> (32 * i) := by
        rw [show 32 * (i + 1) = 32 + 32 * i by omega, Nat.shiftRight_add]
        exact congrArg (· >>> (32 * i)) e
      rw [look, e']
      exact ih i hs

theorem packs_pack {n : Nat} (v : Vector Word n) : Packs (pack v.toList) v := by
  intro i h
  rw [look_pack _ _ (by simpa using h)]
  simp

theorem testBit_look (t i j : Nat) : (look t i).testBit j = (decide (j < 32) && t.testBit (32 * i + j)) := by
  rw [look, Nat.testBit_mod_two_pow, Nat.testBit_shiftRight]

/-- Reading word `a` after two words were replaced. -/
theorem look_putTwo (t i : Nat) {l r : Nat} (hl : l < 2 ^ 32) (hr : r < 2 ^ 32) (a : Nat) :
    look (putTwo t i l r) a = if a = i then l else if a = i + 1 then r else look t a := by
  apply Nat.eq_of_testBit_eq
  intro j
  rw [testBit_look]
  by_cases hj : j < 32
  · have low : ∀ x b, x < 2 ^ 32 → (x <<< (32 * b)).testBit (32 * a + j) = (decide (a = b) && x.testBit j) := by
      intro x b hx
      rw [Nat.testBit_shiftLeft]
      by_cases hab : a = b
      · subst hab
        simp
      · rcases Nat.lt_or_gt_of_ne hab with h | h
        · simp [hab, show ¬ 32 * b ≤ 32 * a + j by omega]
        · have : x.testBit (32 * a + j - 32 * b) = false :=
            Nat.testBit_lt_two_pow (Nat.lt_of_lt_of_le hx (Nat.pow_le_pow_right (by decide) (by omega)))
          simp [hab, this]
    have x1 : look t i ^^^ l < 2 ^ 32 := Nat.xor_lt_two_pow (look_lt t i) hl
    have x2 : look t (i + 1) ^^^ r < 2 ^ 32 := Nat.xor_lt_two_pow (look_lt t (i + 1)) hr
    simp only [putTwo, Nat.testBit_xor, low _ _ x1, low _ _ x2, testBit_look, hj, decide_true, Bool.true_and]
    by_cases h1 : a = i
    · subst h1
      simp
    · by_cases h2 : a = i + 1
      · subst h2
        simp
      · simp [h1, h2, testBit_look, hj]
  · have high : ∀ x, x < 2 ^ 32 → x.testBit j = false := fun x hx =>
      Nat.testBit_lt_two_pow (Nat.lt_of_lt_of_le hx (Nat.pow_le_pow_right (by decide) (by omega)))
    simp only [hj, decide_false, Bool.false_and]
    split
    · rw [high _ hl]
    · split
      · rw [high _ hr]
      · rw [high _ (look_lt t a)]

theorem packs_putTwo {n : Nat} {t : Nat} {v : Vector Word n} (h : Packs t v) (i : Nat) (b : Word × Word) (hi : i + 1 < n) :
    Packs (putTwo t i b.1.toNat b.2.toNat) ((v.set i b.1 (by omega)).set (i + 1) b.2 hi) := by
  intro a ha
  rw [look_putTwo t i b.1.isLt b.2.isLt, Vector.getElem_set, Vector.getElem_set]
  by_cases h1 : a = i
  · subst h1
    simp
  · by_cases h2 : a = i + 1
    · subst h2
      simp
    · simp [h1, h2, Ne.symm h1, Ne.symm h2, h a ha]

/-- Packed tables hold the words of a CipherState. -/
structure Represents (p s0 s1 s2 s3 : Nat) (c : CipherState) : Prop where
  p : Packs p c.p
  s0 : Packs s0 c.s[0]
  s1 : Packs s1 c.s[1]
  s2 : Packs s2 c.s[2]
  s3 : Packs s3 c.s[3]

/-! ## F and EncW -/

theorem look_lookup {t : Nat} {v : Vector Word 256} (h : Packs t v) (x : Word) (i : Nat) :
    look t (x.toNat >>> (24 - 8 * i) % 256) = (lookup v (byteOf x i)).toNat := by
  rw [lookup, ← h _ (byteOf x i).isLt]
  simp [byteOf]

theorem mixPacked_eq {p s0 s1 s2 s3 : Nat} {c : CipherState} (h : Represents p s0 s1 s2 s3 c) (x : Word) :
    mixPacked s0 s1 s2 s3 x.toNat = (mix c.s x).toNat := by
  have e0 := look_lookup h.s0 x 0
  have e1 := look_lookup h.s1 x 1
  have e2 := look_lookup h.s2 x 2
  have e3 := look_lookup h.s3 x 3
  simp only [Nat.mul_zero, Nat.sub_zero, Nat.mul_one, Nat.reduceMul, Nat.reduceSub, Nat.shiftRight_zero] at e0 e1 e2 e3
  simp only [mixPacked, mix, e0, e1, e2, e3, BitVec.toNat_add, BitVec.toNat_xor]

theorem encOrder_drop : ∀ i : Fin 16, encOrder.drop i.val = ⟨i.val, by omega⟩ :: encOrder.drop (i.val + 1) := by
  decide

/-- The rounds from index `i` on. -/
theorem roundsPacked_eq {α : Type} {p s0 s1 s2 s3 : Nat} {c : CipherState} (h : Represents p s0 s1 s2 s3 c)
    (k : Nat → Nat → Nat → α) (n i : Nat) (hi : i + n = 16) (b : Word × Word) :
    roundsPacked s0 s1 s2 s3 k n (p >>> (32 * i)) b.1.toNat b.2.toNat =
      k (p >>> (32 * 16)) ((encOrder.drop i).foldl (feistelRound c) b).1.toNat
        ((encOrder.drop i).foldl (feistelRound c) b).2.toNat := by
  induction n generalizing i b with
  | zero =>
    have e : i = 16 := by omega
    subst e
    rfl
  | succ n ih =>
    have hlt : i < 16 := by omega
    have hp : (p >>> (32 * i)) % 2 ^ 32 = (c.p[i]'(by omega)).toNat := h.p i (by omega)
    have hd := encOrder_drop ⟨i, hlt⟩
    simp only at hd
    have hx : b.1.toNat ^^^ (c.p[i]'(by omega)).toNat = (b.1 ^^^ c.p[i]'(by omega)).toNat := (BitVec.toNat_xor ..).symm
    rw [roundsPacked, force_eq, force_eq, force_eq, hp, hx, mixPacked_eq h, ← BitVec.toNat_xor, ← Nat.shiftRight_add,
      show 32 * i + 32 = 32 * (i + 1) by omega, hd, List.foldl_cons]
    exact ih (i + 1) (by omega) (feistelRound c b ⟨i, by omega⟩)

/-- EncW over packed tables is EncW (R124). -/
theorem encPacked_eq {α : Type} {p s0 s1 s2 s3 : Nat} {c : CipherState} (h : Represents p s0 s1 s2 s3 c)
    (b : Word × Word) (k : Nat → Nat → α) :
    encPacked p s0 s1 s2 s3 b.1.toNat b.2.toNat k = k (encW c b).1.toNat (encW c b).2.toNat := by
  have h16 : (p >>> (32 * 16)) % 2 ^ 32 = c.p[16].toNat := h.p 16 (by omega)
  have h17 : (p >>> (32 * 16) >>> 32) % 2 ^ 32 = c.p[17].toNat := by
    rw [← Nat.shiftRight_add]
    exact h.p 17 (by omega)
  have e := roundsPacked_eq h
    (fun q l r => force (r ^^^ (q >>> 32) % 2 ^ 32) fun a => force (l ^^^ q % 2 ^ 32) fun b => k a b) 16 0 rfl b
  rw [Nat.mul_zero, Nat.shiftRight_zero] at e
  rw [encPacked, e, force_eq, force_eq, h16, h17, ← BitVec.toNat_xor, ← BitVec.toNat_xor]
  rfl

/-! ## The chain -/

/-- Filling one table: `Rel t c` says that `t` packs the table being filled of `c`, and what stands beside it. -/
theorem fillPacked_eq {α : Type} {Rel : Nat → CipherState → Prop} {m : Nat} {put : CipherState → Fin m → Word × Word → CipherState}
    {enc : Nat → Nat → Nat → (Nat → Nat → α) → α}
    (henc : ∀ t c b k, Rel t c → enc t b.1.toNat b.2.toNat k = k (encW c b).1.toNat (encW c b).2.toNat)
    (hput : ∀ t c (j : Fin m) b, Rel t c → Rel (putTwo t (2 * j.val) b.1.toNat b.2.toNat) (put c j b))
    (n : Nat) (hn : n ≤ m) (t : Nat) (c : Chain) (h : Rel t c.tables) :
    ∃ t', Rel t' (((List.finRange m).drop (m - n)).foldl (fun c j => chainStep (fun k b => put k j b) c) c).tables ∧
      ∀ k : Nat → Nat → Nat → α, fillPacked enc m k n t c.block.1.toNat c.block.2.toNat =
        k t' (((List.finRange m).drop (m - n)).foldl (fun c j => chainStep (fun k b => put k j b) c) c).block.1.toNat
          (((List.finRange m).drop (m - n)).foldl (fun c j => chainStep (fun k b => put k j b) c) c).block.2.toNat := by
  induction n generalizing t c with
  | zero =>
    rw [Nat.sub_zero, List.drop_eq_nil_of_le (by simp)]
    exact ⟨t, h, fun k => rfl⟩
  | succ n ih =>
    have hlt : m - (n + 1) < m := by omega
    have hd : (List.finRange m).drop (m - (n + 1)) = ⟨m - (n + 1), hlt⟩ :: (List.finRange m).drop (m - n) := by
      rw [List.drop_eq_getElem_cons (by simpa using hlt), show m - (n + 1) + 1 = m - n by omega]
      simp
    obtain ⟨t', h', e⟩ := ih (by omega) _ (chainStep (fun k b => put k ⟨m - (n + 1), hlt⟩ b) c)
      (hput _ _ ⟨m - (n + 1), hlt⟩ _ h)
    rw [hd, List.foldl_cons]
    refine ⟨t', h', fun k => ?_⟩
    rw [fillPacked, henc _ _ _ _ h, force_eq]
    exact e k

/-- Filling one whole table. -/
theorem fillPacked_full {α : Type} {Rel : Nat → CipherState → Prop} {m : Nat} {put : CipherState → Fin m → Word × Word → CipherState}
    {enc : Nat → Nat → Nat → (Nat → Nat → α) → α}
    (henc : ∀ t c b k, Rel t c → enc t b.1.toNat b.2.toNat k = k (encW c b).1.toNat (encW c b).2.toNat)
    (hput : ∀ t c (j : Fin m) b, Rel t c → Rel (putTwo t (2 * j.val) b.1.toNat b.2.toNat) (put c j b))
    (t : Nat) {c d : Chain} (h : Rel t c.tables)
    (hd : d = (List.finRange m).foldl (fun c j => chainStep (fun k b => put k j b) c) c) :
    ∃ t', Rel t' d.tables ∧ ∀ k : Nat → Nat → Nat → α, fillPacked enc m k m t c.block.1.toNat c.block.2.toNat = k t' d.block.1.toNat d.block.2.toNat := by
  have e := fillPacked_eq henc hput m (Nat.le_refl m) t c h
  rwa [Nat.sub_self, List.drop_zero, ← hd] at e

/-- The four S tables are filled in order (R98). -/
theorem replaceTables_eq (c : CipherState) :
    replaceTables c = (fillS (fillS (fillS (fillS (fillP (chainStart c)) 0) 1) 2) 3).tables := by
  have h : List.finRange 4 = [0, 1, 2, 3] := by decide
  simp only [replaceTables, h, List.foldl_cons, List.foldl_nil]

theorem represents_putP {p s0 s1 s2 s3 : Nat} {c : CipherState} (h : Represents p s0 s1 s2 s3 c) (j : Fin 9)
    (b : Word × Word) : Represents (putTwo p (2 * j.val) b.1.toNat b.2.toNat) s0 s1 s2 s3 (putP c j b) :=
  ⟨packs_putTwo h.p _ b (by omega), h.s0, h.s1, h.s2, h.s3⟩

theorem represents_putS0 {p s0 s1 s2 s3 : Nat} {c : CipherState} (h : Represents p s0 s1 s2 s3 c) (j : Fin 128)
    (b : Word × Word) : Represents p (putTwo s0 (2 * j.val) b.1.toNat b.2.toNat) s1 s2 s3 (putS c 0 j b) := by
  refine ⟨h.p, ?_, ?_, ?_, ?_⟩
  · simpa [putS] using packs_putTwo h.s0 (2 * j.val) b (by omega)
  · simpa [putS] using h.s1
  · simpa [putS] using h.s2
  · simpa [putS] using h.s3

theorem represents_putS1 {p s0 s1 s2 s3 : Nat} {c : CipherState} (h : Represents p s0 s1 s2 s3 c) (j : Fin 128)
    (b : Word × Word) : Represents p s0 (putTwo s1 (2 * j.val) b.1.toNat b.2.toNat) s2 s3 (putS c 1 j b) := by
  refine ⟨h.p, ?_, ?_, ?_, ?_⟩
  · simpa [putS] using h.s0
  · simpa [putS] using packs_putTwo h.s1 (2 * j.val) b (by omega)
  · simpa [putS] using h.s2
  · simpa [putS] using h.s3

theorem represents_putS2 {p s0 s1 s2 s3 : Nat} {c : CipherState} (h : Represents p s0 s1 s2 s3 c) (j : Fin 128)
    (b : Word × Word) : Represents p s0 s1 (putTwo s2 (2 * j.val) b.1.toNat b.2.toNat) s3 (putS c 2 j b) := by
  refine ⟨h.p, ?_, ?_, ?_, ?_⟩
  · simpa [putS] using h.s0
  · simpa [putS] using h.s1
  · simpa [putS] using packs_putTwo h.s2 (2 * j.val) b (by omega)
  · simpa [putS] using h.s3

theorem represents_putS3 {p s0 s1 s2 s3 : Nat} {c : CipherState} (h : Represents p s0 s1 s2 s3 c) (j : Fin 128)
    (b : Word × Word) : Represents p s0 s1 s2 (putTwo s3 (2 * j.val) b.1.toNat b.2.toNat) (putS c 3 j b) := by
  refine ⟨h.p, ?_, ?_, ?_, ?_⟩
  · simpa [putS] using h.s0
  · simpa [putS] using h.s1
  · simpa [putS] using h.s2
  · simpa [putS] using packs_putTwo h.s3 (2 * j.val) b (by omega)

/-- The packed chain is the chain: what `k` is given holds the words of the tables the chain ends with (R97). -/
theorem replacePacked_eq {α : Type} {p s0 s1 s2 s3 : Nat} {c : CipherState} (h : Represents p s0 s1 s2 s3 c)
    (k : Nat → Nat → Nat → Nat → Nat → α) :
    ∃ p' s0' s1' s2' s3', Represents p' s0' s1' s2' s3' (replaceTables c) ∧
      replacePacked p s0 s1 s2 s3 k = k p' s0' s1' s2' s3' := by
  obtain ⟨p, hp, ep⟩ := fillPacked_full (Rel := fun t c => Represents t s0 s1 s2 s3 c) (put := fun c j b => putP c j b)
    (fun _ _ b k h => encPacked_eq (α := α) h b k) (fun _ _ j b h => represents_putP h j b) p (c := chainStart c) h
    (d := fillP (chainStart c)) rfl
  obtain ⟨s0, h0, e0⟩ := fillPacked_full (Rel := fun t c => Represents p t s1 s2 s3 c) (put := fun c j b => putS c 0 j b)
    (fun _ _ b k h => encPacked_eq (α := α) h b k) (fun _ _ j b h => represents_putS0 h j b) s0 hp
    (d := fillS (fillP (chainStart c)) 0) rfl
  obtain ⟨s1, h1, e1⟩ := fillPacked_full (Rel := fun t c => Represents p s0 t s2 s3 c) (put := fun c j b => putS c 1 j b)
    (fun _ _ b k h => encPacked_eq (α := α) h b k) (fun _ _ j b h => represents_putS1 h j b) s1 h0
    (d := fillS (fillS (fillP (chainStart c)) 0) 1) rfl
  obtain ⟨s2, h2, e2⟩ := fillPacked_full (Rel := fun t c => Represents p s0 s1 t s3 c) (put := fun c j b => putS c 2 j b)
    (fun _ _ b k h => encPacked_eq (α := α) h b k) (fun _ _ j b h => represents_putS2 h j b) s2 h1
    (d := fillS (fillS (fillS (fillP (chainStart c)) 0) 1) 2) rfl
  obtain ⟨s3, h3, e3⟩ := fillPacked_full (Rel := fun t c => Represents p s0 s1 s2 t c) (put := fun c j b => putS c 3 j b)
    (fun _ _ b k h => encPacked_eq (α := α) h b k) (fun _ _ j b h => represents_putS3 h j b) s3 h2
    (d := fillS (fillS (fillS (fillS (fillP (chainStart c)) 0) 1) 2) 3) rfl
  rw [replaceTables_eq]
  refine ⟨p, s0, s1, s2, s3, h3, ?_⟩
  exact (ep _).trans ((e0 _).trans ((e1 _).trans ((e2 _).trans (e3 _))))

/-- `encryptsTo` decides what KEYSCHED followed by ENCB gives. -/
theorem encryptsTo_sound {k : List Byte} {b c : Word × Word} (h : encryptsTo k b c = true) : encW (ks k) b = c := by
  have hr : Represents (pack (mixKey k).p.toList) (pack piS0.toList) (pack piS1.toList) (pack piS2.toList)
      (pack piS3.toList) (mixKey k) :=
    ⟨packs_pack _, packs_pack piS0, packs_pack piS1, packs_pack piS2, packs_pack piS3⟩
  obtain ⟨p, s0, s1, s2, s3, hr', e⟩ := replacePacked_eq hr fun p s0 s1 s2 s3 =>
    encPacked p s0 s1 s2 s3 b.1.toNat b.2.toNat fun l r => l == c.1.toNat && r == c.2.toNat
  simp only [encryptsTo, force_eq, e, encPacked_eq hr', Bool.and_eq_true, beq_iff_eq] at h
  exact Prod.ext (BitVec.eq_of_toNat_eq h.1) (BitVec.eq_of_toNat_eq h.2)

end Sys2Proof.Machine
end

