-- ==== Sys2Proof/Laws/Ops.lean ====
section
/-!
SUPPORT. Laws/Ops.lean: what each shared operation over the register window can do, said once (R20 to R28, R53, R184 to R187).
-/
namespace Sys2Proof.Machine

@[simp] theorem raise_eq (e : ErrCode) (s : State) : raise e s = .next (complete e s) := rfl

/-- R53: an access reaches a register only if it is 4 bytes wide and aligned. -/
theorem regAt_some_aligned {off size : Nat} {r : Reg} (h : regAt off size = some r) :
    size = 4 ∧ off % 4 = 0 := by
  unfold regAt at h
  split at h
  · next hs => exact hs
  · cases h

/-- R20: the register an access reaches determines its offset. -/
theorem regAt_some_offset {off size : Nat} {r : Reg} (h : regAt off size = some r) : off = regOffset r := by
  unfold regAt at h
  split at h
  · next hs =>
    obtain ⟨-, h4⟩ := hs
    unfold regOfWord at h
    split at h
    case h_9 k hk =>
      split at h
      · cases h
        simp only [regOffset]
        omega
      · split at h
        · cases h
          simp only [regOffset]
          omega
        · cases h
    all_goals
      cases h
      simp only [regOffset]
      omega
  · cases h

/-- R53: an access of another width reaches no register. -/
theorem regAt_wrong_size {off size : Nat} (h : size ≠ 4) : regAt off size = none := by
  simp [regAt, Config.accessBytes, h]

/-- R53: an unaligned access reaches no register. -/
theorem regAt_unaligned {off size : Nat} (h : off % 4 ≠ 0) : regAt off size = none := by
  simp [regAt, h]

/-- R187: a busy read of a drawn register. -/
theorem readReg_drawn {s : State} {r : Reg} (hb : s.busy = true) (hr : drawnWhileBusy r = true) :
    readReg r s = respondAny s := by
  simp [readReg, hb, hr]

/-- R56: every other read gives back the register's value. -/
theorem readReg_value {s : State} {r : Reg} (h : s.busy = false ∨ drawnWhileBusy r = false) :
    readReg r s = respond (.data (regValue r s)) s := by
  rcases h with h | h <;> simp [readReg, h]

/-- R57: all a read can do. -/
theorem readReg_cases (r : Reg) (s : State) :
    readReg r s = respondAny s ∨ readReg r s = respond (.data (regValue r s)) s := by
  unfold readReg
  split <;> simp

theorem unlessBusy_busy {s : State} (h : s.busy = true) (f : State → State) : unlessBusy f s = overrun s := by
  simp [unlessBusy, h]

theorem unlessBusy_idle {s : State} (h : s.busy = false) (f : State → State) : unlessBusy f s = f s := by
  simp [unlessBusy, h]

/-- R185: the registers whose writes are ignored and set OVR while a command is pending. -/
def guardedReg (r : Reg) : Prop := r = .cmd ∨ r = .keylen ∨ r = .blkL ∨ r = .blkR ∨ ∃ i, r = .key i

/-- R185: all a write can do while a command is pending. -/
theorem writeReg_busy {s : State} (h : s.busy = true) (r : Reg) (v : Word) :
    (guardedReg r ∧ writeReg r v s = overrun s) ∨ (r = .status ∧ writeReg r v s = clearSticky v s) ∨
      (r = .inten ∧ writeReg r v s = setInten v s) ∨ (¬ guardedReg r ∧ writeReg r v s = s) := by
  cases r <;> simp [writeReg, guardedReg, unlessBusy, h]

/-- R20 to R28: all a write can do while no command is pending. -/
theorem writeReg_idle {s : State} (h : s.busy = false) (r : Reg) (v : Word) :
    (r = .cmd ∧ writeReg r v s = accept v s) ∨ (r = .keylen ∧ writeReg r v s = setKeyLen v s) ∨
      (r = .blkL ∧ writeReg r v s = setBlkL v s) ∨ (r = .blkR ∧ writeReg r v s = setBlkR v s) ∨
      (∃ i, r = .key i ∧ writeReg r v s = setKey i v s) ∨ (r = .status ∧ writeReg r v s = clearSticky v s) ∨
      (r = .inten ∧ writeReg r v s = setInten v s) ∨ (¬ guardedReg r ∧ writeReg r v s = s) := by
  cases r <;> simp [writeReg, guardedReg, unlessBusy, h]

/-- R53, R210: if an access answers a next state, `rst` is released, the offset is in the window, and either the access reached a
register or the host got the bus error and nothing else changed. -/
theorem access_next {off size : Nat} {act : Reg → State → State} {s t : State} (h : access off size act s = .next t) :
    s.rst = false ∧ off < 128 ∧
      ((∃ r, regAt off size = some r ∧ t = act r s) ∨
        (regAt off size = none ∧ t = respond (.busError off size) s)) := by
  unfold access at h
  split at h
  · cases h
  · next hr =>
    split at h
    · cases h
    · next ho =>
      refine ⟨by simpa using hr, by simpa [Config.windowBytes] using ho, ?_⟩
      split at h
      · next r hr' => cases h; exact .inl ⟨r, hr', rfl⟩
      · next hr' => cases h; exact .inr ⟨hr', rfl⟩

/-- An access in the window, out of reset, always answers a next state. -/
theorem access_eq_next {off size : Nat} {s : State} (act : Reg → State → State) (hr : s.rst = false) (ho : off < 128) :
    access off size act s =
      .next (match regAt off size with
        | some r => act r s
        | none => respond (.busError off size) s) := by
  simp only [access, hr, Config.windowBytes, Nat.not_le.mpr ho]
  cases regAt off size <;> rfl

/-- R57: all a read can change is what the host has received and the count of draws. -/
theorem memRead_next {off size : Nat} {s t : State} (h : memRead off size s = .next t) :
    ∃ rcv dr, t = { s with received := rcv, draws := dr } := by
  obtain ⟨-, -, ⟨r, -, rfl⟩ | ⟨-, rfl⟩⟩ := access_next h
  · rcases readReg_cases r s with h | h <;> rw [h] <;> exact ⟨_, _, rfl⟩
  · exact ⟨_, _, rfl⟩

/-- All a write can do: a 32-bit write of a register, or the bus error. -/
theorem memWrite_next {off size : Nat} {v : Word} {s t : State} (h : memWrite off size v s = .next t) :
    s.rst = false ∧ off < 128 ∧
      ((∃ r, size = 4 ∧ regAt off 4 = some r ∧ t = writeReg r v s) ∨ ∃ rcv, t = { s with received := rcv }) := by
  obtain ⟨hr, ho, ⟨r, hreg, rfl⟩ | ⟨-, rfl⟩⟩ := access_next h
  · obtain ⟨rfl, -⟩ := regAt_some_aligned hreg
    exact ⟨hr, ho, .inl ⟨r, rfl, hreg, rfl⟩⟩
  · exact ⟨hr, ho, .inr ⟨_, rfl⟩⟩

/-- What no write changes (R23, R26, R32): KEYVALID, ERR, RESULT, P and S, and the level of `rst`. -/
theorem writeReg_keeps (r : Reg) (v : Word) (s : State) :
    (writeReg r v s).keyValid = s.keyValid ∧ (writeReg r v s).err = s.err ∧ (writeReg r v s).cipher = s.cipher ∧
      (writeReg r v s).npad = s.npad ∧ (writeReg r v s).ndata = s.ndata ∧ (writeReg r v s).rst = s.rst ∧
      (writeReg r v s).agenda = s.agenda ∧ (writeReg r v s).received = s.received ∧
      (writeReg r v s).draws = s.draws := by
  cases r <;> cases hb : s.busy <;> simp [writeReg, unlessBusy, hb]

/-- An access never refuses. -/
theorem access_not_refused {off size : Nat} {act : Reg → State → State} {s : State} {r : Refusal} :
    access off size act s ≠ .refused r := by
  unfold access
  split
  · simp
  · split
    · simp
    · split <;> simp

end Sys2Proof.Machine
end

