-- ==== Sys2Proof/Laws/Padding.lean ====
section
/-!
SUPPORT. Laws/Padding.lean: lengths and cases of the padding functions (R140, R142, R150, R153).
-/
namespace Sys2Proof.Machine

theorem length_padBlock {r : Nat} (h : r ≤ 8) {b : List Byte} (hb : b.length = 8) : (padBlock r b).length = 8 := by
  simp [padBlock, hb]
  omega

/-- R142: when unpad succeeds. -/
theorem unpadBytes_eq_some {p d : List Byte} (h : unpadBytes p = some d) :
    ∃ last, p.getLast? = some last ∧ 1 ≤ last.toNat ∧ last.toNat ≤ 8 ∧ last.toNat ≤ p.length ∧
      (∀ x ∈ p.drop (p.length - last.toNat), x = last) ∧ d = p.take (p.length - last.toNat) := by
  unfold unpadBytes at h
  split at h
  · cases h
  · next last hl =>
    simp only at h
    split at h
    · cases h
    · next hn =>
      split at h
      · next ha =>
        cases h
        refine ⟨last, hl, by omega, by omega, by omega, ?_, rfl⟩
        simpa using ha
      · cases h

/-- R153: when UNPAD succeeds. -/
theorem blockPadCount_eq_some {b : List Byte} {n : Nat} (h : blockPadCount b = some n) :
    n = (b.getD 7 0).toNat ∧ 1 ≤ n ∧ n ≤ 8 ∧ ∀ x ∈ b.drop (8 - n), x = b.getD 7 0 := by
  unfold blockPadCount at h
  simp only at h
  split at h
  · cases h
  · next hn =>
    split at h
    · next ha =>
      cases h
      refine ⟨rfl, by omega, by omega, ?_⟩
      simpa using ha
    · cases h

end Sys2Proof.Machine
end

