-- ==== Sys2Proof/Laws/PerInstr.lean ====
section
/-!
SUPPORT. Laws/PerInstr.lean: the families of statements made for each instruction as syntax, one lemma per constructor of Instr.
-/

namespace Sys2Proof.Laws.EncodeShape

/-- R70, R73: the word of a well-formed instruction has RSV = 0, an assigned OP (0 to 6), and ARG = 0 in every command but PAD,
where ARG is the count. -/
def Statement (i : Sys2Proof.Instr) : Prop :=
  i.wellFormed = true →
    Sys2Proof.rsvField (Sys2Proof.encode i) = 0 ∧ (Sys2Proof.opField (Sys2Proof.encode i)).toNat ≤ 6 ∧
      (Sys2Proof.argField (Sys2Proof.encode i)).toNat =
        (match i with
         | .nop => 0
         | .keysched => 0
         | .encb => 0
         | .decb => 0
         | .pad r => r
         | .unpad => 0
         | .zeroize => 0)

theorem nop : Statement .nop := by intro _; decide

theorem keysched : Statement .keysched := by intro _; decide

theorem encb : Statement .encb := by intro _; decide

theorem decb : Statement .decb := by intro _; decide

theorem pad (r : Nat) : Statement (.pad r) := by
  intro h
  have hr : r < 8 := by simpa [Sys2Proof.Instr.wellFormed] using h
  match r, hr with
  | 0, _ => decide
  | 1, _ => decide
  | 2, _ => decide
  | 3, _ => decide
  | 4, _ => decide
  | 5, _ => decide
  | 6, _ => decide
  | 7, _ => decide

theorem unpad : Statement .unpad := by intro _; decide

theorem zeroize : Statement .zeroize := by intro _; decide

end Sys2Proof.Laws.EncodeShape
end

