-- ==== Sys2Proof/Laws/Turns.lean ====
section
/-!
SUPPORT. Laws/Turns.lean: what a command, a completion and a step can do, said once (R19, R60, R186).
-/
namespace Sys2Proof.Machine

/-- Every command answers a next state: the engine never hangs and never refuses (R186). -/
theorem exec_answers_next (i : Instr) (s : State) : ∃ t, exec i s = .next t := by
  cases i with
  | nop => exact ⟨_, rfl⟩
  | keysched => simp only [exec, execKeysched, raise]; split <;> exact ⟨_, rfl⟩
  | encb => simp only [exec, execEncb, transformBlock, raise]; split <;> exact ⟨_, rfl⟩
  | decb => simp only [exec, execDecb, transformBlock, raise]; split <;> exact ⟨_, rfl⟩
  | pad r => exact ⟨_, rfl⟩
  | unpad => simp only [exec, execUnpad, raise]; split <;> exact ⟨_, rfl⟩
  | zeroize => exact ⟨_, rfl⟩

/-- R188: all a command can do: complete with an error code and nothing else, or complete with code 0 over the command's own effect. -/
theorem exec_next {i : Instr} {s t : State} (h : exec i s = .next t) :
    (∃ e, (e = .invalidKey ∨ e = .noKey ∨ e = .invalidPadding) ∧ t = complete e s) ∨
    (i = .nop ∧ t = complete .none s) ∨
    (i = .keysched ∧ legalKeyLen s.keyLen.toNat = true ∧
      t = complete .none { s with cipher := ks (stateKey s), keyValid := true }) ∨
    (i = .encb ∧ s.keyValid = true ∧
      t = complete .none { s with
        blkL := (encW s.cipher (s.blkL, s.blkR)).1
        blkR := (encW s.cipher (s.blkL, s.blkR)).2 }) ∨
    (i = .decb ∧ s.keyValid = true ∧
      t = complete .none { s with
        blkL := (decW s.cipher (s.blkL, s.blkR)).1
        blkR := (decW s.cipher (s.blkL, s.blkR)).2 }) ∨
    (∃ r, i = .pad r ∧ t = complete .none (setBlockBytes (padBlock r (stateBlock s)) s)) ∨
    (∃ n, i = .unpad ∧ blockPadCount (stateBlock s) = some n ∧
      t = complete .none { s with npad := BitVec.ofNat 4 n, ndata := BitVec.ofNat 4 (8 - n) }) ∨
    (i = .zeroize ∧ t = complete .none (zeroed s)) := by
  cases i with
  | nop => cases h; simp
  | keysched =>
    simp only [exec, execKeysched, raise] at h
    split at h
    · next hl => cases h; simp [hl]
    · cases h; exact .inl ⟨_, by simp, rfl⟩
  | encb =>
    simp only [exec, execEncb, transformBlock, raise] at h
    split at h
    · next hk => cases h; simp [hk]
    · cases h; exact .inl ⟨_, by simp, rfl⟩
  | decb =>
    simp only [exec, execDecb, transformBlock, raise] at h
    split at h
    · next hk => cases h; simp [hk]
    · cases h; exact .inl ⟨_, by simp, rfl⟩
  | pad r => cases h; simp
  | unpad =>
    simp only [exec, execUnpad, raise] at h
    split at h
    · next n hn => cases h; simp [hn]
    · cases h; exact .inl ⟨_, by simp, rfl⟩
  | zeroize => cases h; simp

/-- The completion of any word answers a next state. -/
theorem completeWord_answers_next (c : Word) (s : State) : ∃ t, completeWord c s = .next t := by
  unfold completeWord
  cases decode c with
  | command i => exact exec_answers_next i s
  | illegal why => exact ⟨_, rfl⟩

/-- All a completion can do. -/
theorem completeWord_next {c : Word} {s t : State} (h : completeWord c s = .next t) :
    (∃ i, decode c = .command i ∧ exec i s = .next t) ∨
    (∃ why, decode c = .illegal why ∧ t = complete .illegalCmd s) := by
  unfold completeWord at h
  split at h
  · next i hd => exact .inl ⟨i, hd, h⟩
  · next why hd => cases h; exact .inr ⟨why, hd, rfl⟩

theorem engineTurn_some {s : State} {c : Word} (h : s.pend = some c) : engineTurn s = completeWord c s := by
  simp [engineTurn, h]

theorem engineTurn_none {s : State} (h : s.pend = none) : engineTurn s = .next s := by
  simp [engineTurn, h]

/-- All an engine's turn can do. -/
theorem engineTurn_next {s t : State} (h : engineTurn s = .next t) :
    (s.pend = none ∧ t = s) ∨ ∃ c, s.pend = some c ∧ completeWord c s = .next t := by
  cases hp : s.pend with
  | none =>
    rw [engineTurn_none hp] at h
    cases h
    exact .inl ⟨rfl, rfl⟩
  | some c =>
    rw [engineTurn_some hp] at h
    exact .inr ⟨c, rfl, h⟩

/-- What every completion does and what none changes (R13, R186): DONE is set; OVR, INTEN, `rst` and the host's side stay. -/
theorem completeWord_keeps {c : Word} {s t : State} (h : completeWord c s = .next t) :
    t.done = true ∧ t.ovr = s.ovr ∧ t.doneIe = s.doneIe ∧ t.ovrIe = s.ovrIe ∧ t.rst = s.rst ∧ t.agenda = s.agenda ∧
      t.received = s.received ∧ t.draws = s.draws := by
  rcases completeWord_next h with ⟨i, -, hi⟩ | ⟨why, -, rfl⟩
  · rcases exec_next hi with ⟨e, -, rfl⟩ | ⟨-, rfl⟩ | ⟨-, -, rfl⟩ | ⟨-, -, rfl⟩ | ⟨-, -, rfl⟩ | ⟨r, -, rfl⟩ |
      ⟨n, -, -, rfl⟩ | ⟨-, rfl⟩ <;> exact ⟨rfl, rfl, rfl, rfl, rfl, rfl, rfl, rfl⟩
  · exact ⟨rfl, rfl, rfl, rfl, rfl, rfl, rfl, rfl⟩

/-- R31, R33: what a completion may do to the key flag and the tables: nothing, or what KEYSCHED or ZEROIZE does to both. -/
theorem completeWord_key {c : Word} {s t : State} (h : completeWord c s = .next t) :
    (t.keyValid = s.keyValid ∧ t.cipher = s.cipher) ∨
    (decode c = .command .keysched ∧ legalKeyLen s.keyLen.toNat = true ∧ t.keyValid = true ∧
      t.cipher = ks (stateKey s)) ∨
    (decode c = .command .zeroize ∧ t.keyValid = false ∧ t.cipher = CipherState.zero) := by
  rcases completeWord_next h with ⟨i, hd, hi⟩ | ⟨why, -, rfl⟩
  · rcases exec_next hi with ⟨e, -, rfl⟩ | ⟨-, rfl⟩ | ⟨rfl, hl, rfl⟩ | ⟨-, -, rfl⟩ | ⟨-, -, rfl⟩ | ⟨r, -, rfl⟩ |
      ⟨n, -, -, rfl⟩ | ⟨rfl, rfl⟩
    · exact .inl ⟨rfl, rfl⟩
    · exact .inl ⟨rfl, rfl⟩
    · exact .inr (.inl ⟨hd, hl, rfl, rfl⟩)
    · exact .inl ⟨rfl, rfl⟩
    · exact .inl ⟨rfl, rfl⟩
    · exact .inl ⟨rfl, rfl⟩
    · exact .inl ⟨rfl, rfl⟩
    · exact .inr (.inr ⟨hd, rfl, rfl⟩)
  · exact .inl ⟨rfl, rfl⟩

/-- After the engine's turn no command is pending (R186). -/
theorem completeWord_pend {c : Word} {s t : State} (h : completeWord c s = .next t) : t.pend = none := by
  rcases completeWord_next h with ⟨i, -, hi⟩ | ⟨why, -, rfl⟩
  · rcases exec_next hi with ⟨e, -, rfl⟩ | ⟨-, rfl⟩ | ⟨-, -, rfl⟩ | ⟨-, -, rfl⟩ | ⟨-, -, rfl⟩ | ⟨r, -, rfl⟩ |
      ⟨n, -, -, rfl⟩ | ⟨-, rfl⟩ <;> rfl
  · rfl

theorem step_nil {s : State} (h : s.agenda = []) : step s = engineTurn s := by
  simp [step, nextTurn, h]

theorem step_cons {s : State} {e : Event} {es : List Event} (h : s.agenda = e :: es) :
    step s = happen e { s with agenda := es } := by
  simp [step, nextTurn, h]

/-- All a step can do (R60). -/
theorem step_next {s t : State} (h : step s = .next t) :
    (s.agenda = [] ∧ engineTurn s = .next t) ∨
    (∃ es, s.agenda = .engine :: es ∧ engineTurn { s with agenda := es } = .next t) ∨
    (∃ es off size, s.agenda = .read off size :: es ∧ memRead off size { s with agenda := es } = .next t) ∨
    (∃ es off size v, s.agenda = .write off size v :: es ∧ memWrite off size v { s with agenda := es } = .next t) ∨
    (∃ es b, s.agenda = .rst b :: es ∧ t = setRst b { s with agenda := es }) := by
  cases ha : s.agenda with
  | nil => rw [step_nil ha] at h; exact .inl ⟨rfl, h⟩
  | cons e es =>
    rw [step_cons ha] at h
    cases e with
    | read off size => exact .inr (.inr (.inl ⟨es, off, size, rfl, h⟩))
    | write off size v => exact .inr (.inr (.inr (.inl ⟨es, off, size, v, rfl, h⟩)))
    | engine => exact .inr (.inl ⟨es, rfl, h⟩)
    | rst b => cases h; exact .inr (.inr (.inr (.inr ⟨es, b, rfl, rfl⟩)))

/-- All a step can change, in the terms whole-machine claims use: the engine's turn with some rest of the agenda, a read, a write of
a register or a bus error, or a change of `rst`. -/
theorem step_effects {s t : State} (h : step s = .next t) :
    (EnginesTurn s ∧ ∃ es, engineTurn { s with agenda := es } = .next t) ∨
    (∃ es off size rcv dr, s.agenda = .read off size :: es ∧
      t = { s with agenda := es, received := rcv, draws := dr }) ∨
    (∃ es off size v, s.agenda = .write off size v :: es ∧ s.rst = false ∧
      ((∃ r, size = 4 ∧ regAt off 4 = some r ∧ t = writeReg r v { s with agenda := es }) ∨
        ∃ rcv, t = { s with agenda := es, received := rcv })) ∨
    (∃ es b, s.agenda = .rst b :: es ∧ t = setRst b { s with agenda := es }) := by
  rcases step_next h with ⟨ha, h⟩ | ⟨es, ha, h⟩ | ⟨es, off, size, ha, h⟩ | ⟨es, off, size, v, ha, h⟩ | ⟨es, b, ha, rfl⟩
  · have hs : ({ s with agenda := [] } : State) = s := by rw [← ha]
    exact .inl ⟨.inl ha, [], by rw [hs]; exact h⟩
  · exact .inl ⟨.inr ⟨es, ha⟩, es, h⟩
  · obtain ⟨rcv, dr, rfl⟩ := memRead_next h
    exact .inr (.inl ⟨es, off, size, rcv, dr, ha, rfl⟩)
  · obtain ⟨hr, -, hw⟩ := memWrite_next h
    exact .inr (.inr (.inl ⟨es, off, size, v, ha, hr, hw⟩))
  · exact .inr (.inr (.inr ⟨es, b, ha, rfl⟩))

/-- A 32-bit write of the register at `off`, out of reset. -/
theorem step_write {s : State} {off : Nat} {v : Word} {es : List Event} {r : Reg} (hr : s.rst = false)
    (ho : off < 128) (h : regAt off 4 = some r) (ha : s.agenda = .write off 4 v :: es) :
    step s = .next (writeReg r v { s with agenda := es }) := by
  have hr' : ({ s with agenda := es } : State).rst = false := hr
  rw [step_cons ha]
  simp only [happen, memWrite, access_eq_next _ hr' ho, h]

/-- A 32-bit read of the register at `off`, out of reset. -/
theorem step_read {s : State} {off : Nat} {es : List Event} {r : Reg} (hr : s.rst = false) (ho : off < 128)
    (h : regAt off 4 = some r) (ha : s.agenda = .read off 4 :: es) :
    step s = .next (readReg r { s with agenda := es }) := by
  have hr' : ({ s with agenda := es } : State).rst = false := hr
  rw [step_cons ha]
  simp only [happen, memRead, access_eq_next _ hr' ho, h]

/-- A latched word is what the next step completes (R186). -/
theorem step_withFetchWord (s : State) (nbits w : Nat) :
    step (s.withFetchWord nbits w) =
      completeWord (BitVec.ofNat 32 (w % 2 ^ nbits)) { s with pend := some (BitVec.ofNat 32 (w % 2 ^ nbits)) } := by
  simp [step, nextTurn, State.withFetchWord, latchWord, happen, engineTurn]

end Sys2Proof.Machine
end

