-- ==== Sys2Proof/Laws/Platform.lean ====
section
/-!
SUPPORT. Laws/Platform.lean: which accesses reach the window, and one event performed by itself (R50, R58, R59, R195).
-/
namespace Sys2Proof.Machine

/-- When an access reaches the engine, and at which offset. -/
theorem windowOffset_eq_some_iff (pr : Config.Parameters) (m a off : Nat) :
    windowOffset pr m a = some off ↔ pr.bfeAccessPolicy m = true ∧ a = pr.bfeBase + off ∧ off < 128 := by
  unfold windowOffset Config.windowBytes
  split
  · next h =>
    rw [Option.some.injEq]
    exact ⟨fun e => ⟨h.1, by omega, by omega⟩, fun e => (by omega)⟩
  · next h =>
    refine ⟨fun e => (by cases e), fun e => absurd ⟨e.1, ?_, ?_⟩ h⟩ <;> omega

/-- When an access does not reach the engine. -/
theorem windowOffset_eq_none_iff (pr : Config.Parameters) (m a : Nat) :
    windowOffset pr m a = none ↔ pr.bfeAccessPolicy m = false ∨ a < pr.bfeBase ∨ pr.bfeBase + 128 ≤ a := by
  unfold windowOffset Config.windowBytes
  cases hm : pr.bfeAccessPolicy m <;> simp
  omega

/-- No events leave the state as it is. -/
@[simp] theorem perform_nil (s : State) : perform [] s = .next s := rfl

/-- One event performed by itself is what happens at it. -/
theorem perform_singleton (e : Event) (s : State) : perform [e] s = happen e s := by
  have h : step { s with agenda := e :: s.agenda } = happen e s := step_cons rfl
  simp only [perform, List.length_singleton, List.singleton_append, runSteps, h]
  cases happen e s <;> rfl

end Sys2Proof.Machine
end

