-- ==== Sys2Proof/Tests/Slice0.lean ====
section
/-!
SUPPORT. Tests/Slice0.lean: tests with expected results from the spec (30_encoding.md, 41_ks_constants.md R116, 60_exceptions.md,
95_test_vectors.md), and for every statement with hypotheses a concrete input that meets them.
-/
namespace Sys2Proof.Tests

open Sys2Proof.Machine

/-! ## Helpers -/

/-- The next state of an answer, if it has one. -/
def next? (a : Answer) : Option State :=
  match a with
  | .next t => some t
  | .fault _ => none
  | .refused _ => none

/-- The machine after reset with the events `es` to come. -/
def idleWith (es : List Event) : State := { State.reset with agenda := es }

/-- The machine with the command word `c` pending and the events `es` to come. -/
def busyWith (c : Word) (es : List Event) : State := { State.reset with pend := some c, agenda := es }

/-- The machine after reset with a block. -/
def withBlock (l r : Word) : State := { State.reset with blkL := l, blkR := r }

/-- A keyed machine with the given tables and block. -/
def keyed (k : CipherState) (l r : Word) : State := { State.reset with keyValid := true, cipher := k, blkL := l, blkR := r }

/-- The machine after reset with a key length. -/
def withKeyLen (n : BitVec 6) : State := { State.reset with keyLen := n }

/-- The ROM tables mixed with the all-zero key of eight bytes (95_test_vectors.md 3.1: "leaves P = PI_P"). -/
def zeroKeyMixed : CipherState := mixKey (List.replicate 8 0)

/-- The ERR code and the STATUS word of a next state. -/
def status? (a : Answer) : Option Word := (next? a).map statusWord

/-! ## WellFormed: the one check, with terms it refuses -/

theorem test_wellFormed_refuses_pad_8 : (Instr.pad 8).wellFormed = false := by decide

theorem test_wellFormed_refuses_pad_15 : (Instr.pad 15).wellFormed = false := by decide

theorem test_wellFormed_admits_pad_7 : (Instr.pad 7).wellFormed = true := by decide

/-! ## Decoding: words written out from OP = c[3:0], ARG = c[7:4], RSV = c[31:8] (R70 to R75) -/

theorem test_decode_nop : decode 0b00000000000000000000000000000000#32 = .command .nop := by decide

theorem test_decode_keysched : decode 0b00000000000000000000000000000001#32 = .command .keysched := by decide

theorem test_decode_encb : decode 0b00000000000000000000000000000010#32 = .command .encb := by decide

theorem test_decode_decb : decode 0b00000000000000000000000000000011#32 = .command .decb := by decide

theorem test_decode_pad_0 : decode 0b00000000000000000000000000000100#32 = .command (.pad 0) := by decide

theorem test_decode_pad_5 : decode 0b00000000000000000000000001010100#32 = .command (.pad 5) := by decide

theorem test_decode_unpad : decode 0b00000000000000000000000000000101#32 = .command .unpad := by decide

theorem test_decode_zeroize : decode 0b00000000000000000000000000000110#32 = .command .zeroize := by decide

/-- The illegal words of 95_test_vectors.md section 7. -/
theorem test_decode_illegal_words :
    decode 0x00000007 = .illegal .reservedOp ∧ decode 0x0000000F = .illegal .reservedOp ∧
    decode 0x00000010 = .illegal .argNotZero ∧ decode 0x00000084 = .illegal .padCount ∧
    decode 0x000000F4 = .illegal .padCount ∧ decode 0x00000012 = .illegal .argNotZero ∧
    decode 0x00000102 = .illegal .reservedBits ∧ decode 0x80000001 = .illegal .reservedBits ∧
    decode 0xFFFFFFFF = .illegal .reservedBits := by decide

/-- The host's two questions on a table row. -/
theorem test_decodeTableWord : decodeTableWord 32 0x74 = some (.pad 7) ∧ decodeTableWord 32 0x84 = none := by decide

theorem test_step_runs_the_latched_word :
    status? (step (State.reset.withFetchWord 32 0x00000002)) = some 0x00000504 := by decide

/-! ## The mixing function and the key mixing: 95_test_vectors.md sections 4 and 3.5 -/

theorem test_mix_01020304 : mix piS 0x01020304 = 0x3CEDFF8C := by decide +kernel

theorem test_mix_wraps : mix piS 0xFFFFFFFF = 0x452C2867 := by decide +kernel

theorem test_mixKey_first_and_last :
    (mixKey [0x01, 0x23, 0x45, 0x67, 0x89, 0xAB, 0xCD, 0xEF]).p[0] = 0x251C2FEF ∧
    (mixKey [0x01, 0x23, 0x45, 0x67, 0x89, 0xAB, 0xCD, 0xEF]).p[17] = 0x00D236F4 := by decide +kernel

/-- The words of a key whose length does not divide 4: the key index carries across words. -/
theorem test_keyWord_carries :
    (List.range 4).map (keyWord [0xF0, 0xE1, 0xD2]) = [0xF0E1D2F0, 0xE1D2F0E1, 0xD2F0E1D2, 0xF0E1D2F0] := by decide

/-! ## One or two tests for each command -/

theorem test_nop_sets_done : status? (exec .nop State.reset) = some 0x00000004 := by decide

theorem test_nop_clears_err : status? (exec .nop { State.reset with err := 5, keyValid := true }) = some 0x00000006 := by decide

/-- R93: 57 is too long; KEYVALID keeps its value (program 4 of 95_test_vectors.md). -/
theorem test_keysched_57_bytes : status? (exec .keysched (withKeyLen 57)) = some 0x00000104 := by decide

/-- R95: 56 bytes are legal. -/
theorem test_keysched_56_bytes : status? (exec .keysched (withKeyLen 56)) = some 0x00000006 := by decide

/-- 95_test_vectors.md 3.1: the first EncW of the zero block under the ROM tables. -/
theorem test_encb_first_block_of_the_chain :
    (next? (exec .encb (keyed zeroKeyMixed 0 0))).map (fun t => (t.blkL, t.blkR)) =
      some (0x706D9FCC, 0x1792D23A) := by decide +kernel

/-- 95_test_vectors.md 5.4. -/
theorem test_encb_without_a_key :
    (next? (exec .encb (withBlock 0x11111111 0x22222222))).map (fun t => (statusWord t, t.blkL, t.blkR)) =
      some (0x00000504, 0x11111111, 0x22222222) := by decide

/-- The same vector decrypted (R127). -/
theorem test_decb_first_block_of_the_chain :
    (next? (exec .decb (keyed zeroKeyMixed 0x706D9FCC 0x1792D23A))).map (fun t => (t.blkL, t.blkR)) =
      some (0, 0) := by decide +kernel

theorem test_decb_without_a_key : status? (exec .decb State.reset) = some 0x00000504 := by decide

/-- 95_test_vectors.md 6.1, the eight rows. -/
theorem test_pad_rows :
    (List.range 8).map (fun r => (next? (exec (.pad r) (withBlock 0x11223344 0x55667788))).map (fun t => (t.blkL, t.blkR))) =
      [some (0x08080808, 0x08080808), some (0x11070707, 0x07070707), some (0x11220606, 0x06060606),
        some (0x11223305, 0x05050505), some (0x11223344, 0x04040404), some (0x11223344, 0x55030303),
        some (0x11223344, 0x55660202), some (0x11223344, 0x55667701)] := by decide

/-- 95_test_vectors.md 6.2, the successes: RESULT. -/
theorem test_unpad_successes :
    [(0x08080808, 0x08080808), (0x07070707, 0x07070707), (0xAABBCCDD, 0xEEFF0101), (0x48656C6C, 0x6F030303)].map
      (fun b : Word × Word => (next? (exec .unpad (withBlock b.1 b.2))).map (fun t => (t.err, resultWord t))) =
      [some (0, 0x80), some (0, 0x71), some (0, 0x17), some (0, 0x35)] := by decide

/-- 95_test_vectors.md 6.2, the failures: ERR = 4 and RESULT keeps its value. -/
theorem test_unpad_failures :
    [(0x11223344, 0x55667700), (0x11223344, 0x55667709), (0x11223344, 0x556677FF), (0x11223344, 0x55660302),
      (0x08080808, 0x08080807), (0x00080808, 0x08080808), (0x48656C6C, 0x6F030203)].map
      (fun b : Word × Word =>
        (next? (exec .unpad { withBlock b.1 b.2 with npad := 3, ndata := 5 })).map (fun t => (t.err, resultWord t))) =
      List.replicate 7 (some (4, 0x35)) := by decide

/-- R171: the STATUS after ZEROIZE, with a key, an error and OVR before it. -/
theorem test_zeroize_status :
    status? (exec .zeroize { withBlock 1 2 with keyValid := true, ovr := true, err := 4, keyLen := 5 }) =
      some 0x0000000C := by decide

theorem test_zeroize_registers :
    (next? (exec .zeroize { withBlock 1 2 with keyLen := 5, npad := 3, ndata := 5 })).map
      (fun t => (t.blkL, t.blkR, t.keyLen, resultWord t)) = some (0, 0, 0, 0) := by decide

/-! ## Published known-answer vectors, through the whole key schedule (95_test_vectors.md 2.1 and 2.2) -/

/-- Vector K7. -/
theorem test_known_answer_K7 :
    encW (ks [0xFE, 0xDC, 0xBA, 0x98, 0x76, 0x54, 0x32, 0x10]) (0x01234567, 0x89ABCDEF) = (0x0ACEAB0F, 0xC6A0A28D) :=
  encryptsTo_sound (by decide +kernel)

/-- The key of three bytes, a length that does not divide 4. -/
theorem test_known_answer_three_bytes :
    encW (ks [0xF0, 0xE1, 0xD2]) (0xFEDCBA98, 0x76543210) = (0xE9C2B70A, 0x1BC65CF3) :=
  encryptsTo_sound (by decide +kernel)

/-! ## The pure functions: 95_test_vectors.md 6.3 -/

theorem test_padBytes :
    padBytes [] = [8, 8, 8, 8, 8, 8, 8, 8] ∧ padBytes [3, 3, 3] = [3, 3, 3, 5, 5, 5, 5, 5] := by decide

theorem test_unpadBytes :
    unpadBytes [] = none ∧ unpadBytes [1] = some [] ∧ unpadBytes [2] = none ∧ unpadBytes [3, 3, 3] = some [] ∧
    unpadBytes [0x41, 5, 5, 5, 5, 5] = some [0x41] ∧ unpadBytes [1, 2, 3, 4, 5, 6, 7, 8] = none := by decide

/-! ## The register window and the lifecycle -/

/-- R184, R36: the step after the write of CMD reads BUSY as 1. -/
theorem test_accept_sets_busy : status? (step (idleWith [.write 0x04 4 0x00000001])) = some 0x00000001 := by decide

/-- R185: a write to BLK_L while a command is pending is lost and sets OVR. -/
theorem test_busy_write_is_lost :
    (next? (step (busyWith 0 [.write 0x18 4 0x12345678]))).map (fun t => (statusWord t, t.blkL)) =
      some (0x00000009, 0) := by decide

/-- R25: the length is six bits; 0x7F reads back 0x3F (95_test_vectors.md 3.6). -/
theorem test_keylen_is_six_bits :
    (next? (runSteps 2 (idleWith [.write 0x10 4 0x7F, .read 0x10 4]))).map (fun t => t.received) =
      some [.data 0x3F] := by decide

/-- R192: the two orders of a write that races the completion of a NOP. -/
theorem test_racing_write_lost :
    (next? (runSteps 2 (busyWith 0 [.write 0x18 4 7, .engine]))).map (fun t => (statusWord t, t.blkL)) =
      some (0x0000000C, 0) := by decide

theorem test_racing_write_performed :
    (next? (runSteps 2 (busyWith 0 [.engine, .write 0x18 4 7]))).map (fun t => (statusWord t, t.blkL)) =
      some (0x00000004, 7) := by decide

/-- R190, R191: the line rises when a pending DONE is enabled. -/
theorem test_irq_rises_on_enable :
    (next? (step { idleWith [.write 0x0C 4 1] with done := true })).map irq = some true := by decide

theorem test_bus_error_of_a_byte_access :
    (next? (step (idleWith [.read 0x19 1]))).map (fun t => t.received) = some [.busError 0x19 1] := by decide

/-! ## The hypotheses of the statements are met: one concrete input for each, at the boundary of each clause -/

theorem witness_ResetAbandonsThePendingCommand :
    (busyWith 1 [.rst true]).agenda = .rst true :: [] ∧ (busyWith 1 [.rst false]).agenda = .rst false :: [] := ⟨rfl, rfl⟩

theorem witness_NopCompletesWithNoEffect : opField 0x00000010 = 0 ∧ (0x00000010 : Word) ≠ 0 := by decide

theorem witness_KeyschedBuildsTheCipherState :
    (1 ≤ (withKeyLen 1).keyLen.toNat ∧ (withKeyLen 1).keyLen.toNat ≤ 56) ∧
    (1 ≤ (withKeyLen 56).keyLen.toNat ∧ (withKeyLen 56).keyLen.toNat ≤ 56) := by decide

theorem witness_KeyschedRefusesIllegalLength :
    (withKeyLen 0).keyLen.toNat = 0 ∧ 56 < (withKeyLen 57).keyLen.toNat ∧ 56 < (withKeyLen 63).keyLen.toNat := by decide

theorem witness_EncbTransformsTheBlock : (keyed zeroKeyMixed 1 2).keyValid = true := rfl

theorem witness_DecbTransformsTheBlock : (keyed CipherState.zero 1 2).keyValid = true := rfl

theorem witness_BlockCommandsWithoutAKeyReportNoKey :
    ((.encb : Instr) = .encb ∨ (.encb : Instr) = .decb) ∧ ((.decb : Instr) = .encb ∨ (.decb : Instr) = .decb) ∧
    State.reset.keyValid = false := by decide

theorem witness_PadFillsTheFinalBlock : 0 < 8 ∧ 7 < 8 ∧ (8 ≤ 8 ∧ 8 < 16) ∧ (8 ≤ 15 ∧ 15 < 16) := by decide

/-- The successes at n = 1 and n = 8. -/
theorem witness_UnpadChecksTheFinalBlock_success :
    (1 = (byteOf (withBlock 0xAABBCCDD 0xEEFF0101).blkR 3).toNat ∧
      ∀ i, 8 - 1 ≤ i → i < 8 → (blockBytes 0xAABBCCDD 0xEEFF0101)[i]? = some (byteOf 0xEEFF0101 3)) ∧
    (8 = (byteOf (withBlock 0x08080808 0x08080808).blkR 3).toNat ∧
      ∀ i, 8 - 8 ≤ i → i < 8 → (blockBytes 0x08080808 0x08080808)[i]? = some (byteOf 0x08080808 3)) := by
  refine ⟨⟨by decide, fun i h1 h2 => ?_⟩, by decide, fun i h1 h2 => ?_⟩ <;> interval_cases i <;> decide

/-- The failures: n = 0, n = 9, and n = 8 with a byte that differs. -/
theorem witness_UnpadChecksTheFinalBlock_failure :
    0 = (byteOf (withBlock 0x11223344 0x55667700).blkR 3).toNat ∧
    (9 = (byteOf (withBlock 0x11223344 0x55667709).blkR 3).toNat ∧ 8 < 9) ∧
    (8 = (byteOf (withBlock 0x00080808 0x08080808).blkR 3).toNat ∧
      (8 - 8 ≤ 0 ∧ 0 < 8 ∧ (blockBytes 0x00080808 0x08080808)[0]? ≠ some (byteOf 0x08080808 3))) := by decide

theorem witness_ZeroizeDestroysTheKeyMaterial : (keyed zeroKeyMixed 1 2).ovr = false := rfl

theorem witness_ErrorsOfEachCommand :
    (∃ t, exec .nop State.reset = .next t) ∧ (∃ t, exec .keysched (withKeyLen 1) = .next t) ∧
    (∃ t, exec .keysched (withKeyLen 57) = .next t) ∧ (∃ t, exec .encb (keyed CipherState.zero 1 2) = .next t) ∧
    (∃ t, exec .encb State.reset = .next t) ∧ (∃ t, exec .decb (keyed CipherState.zero 1 2) = .next t) ∧
    (∃ t, exec .decb State.reset = .next t) ∧ (∃ t, exec (.pad 7) State.reset = .next t) ∧
    (∃ t, exec .unpad State.reset = .next t) ∧ (∃ t, exec .unpad (withBlock 0 1) = .next t) ∧
    (∃ t, exec .zeroize State.reset = .next t) ∧
    (decode 0x0000000F = .illegal .reservedOp ∧ ∃ t, completeWord 0x0000000F State.reset = .next t) ∧
    ((busyWith 1 [.write (regOffset (.key 13)) 4 7]).pend ≠ none ∧
      (busyWith 1 [.write (regOffset (.key 13)) 4 7]).rst = false ∧
      (busyWith 1 [.write (regOffset (.key 13)) 4 7]).agenda = .write (regOffset (.key 13)) 4 7 :: []) :=
  ⟨exec_answers_next _ _, exec_answers_next _ _, exec_answers_next _ _, exec_answers_next _ _, exec_answers_next _ _,
    exec_answers_next _ _, exec_answers_next _ _, exec_answers_next _ _, exec_answers_next _ _, exec_answers_next _ _,
    exec_answers_next _ _, ⟨by decide, completeWord_answers_next _ _⟩, by decide⟩

/-- One error of each code: 1, 4, 5 and 6. -/
theorem witness_FailedCommandChangesOnlyStatus :
    (∃ t, completeWord 0x00000001 (withKeyLen 57) = .next t ∧ t.err ≠ 0) ∧
    (∃ t, completeWord 0x00000005 State.reset = .next t ∧ t.err ≠ 0) ∧
    (∃ t, completeWord 0x00000002 State.reset = .next t ∧ t.err ≠ 0) ∧
    (∃ t, completeWord 0x00000007 State.reset = .next t ∧ t.err ≠ 0) :=
  ⟨⟨complete .invalidKey (withKeyLen 57), rfl, by decide⟩, ⟨complete .invalidPadding State.reset, rfl, by decide⟩,
    ⟨complete .noKey State.reset, rfl, by decide⟩, ⟨complete .illegalCmd State.reset, rfl, by decide⟩⟩

theorem witness_IllegalWordCompletesWithIllegalCmd :
    (busyWith 0xFFFFFFFF []).pend = some 0xFFFFFFFF ∧
    (0xFFFFFFFF : Word) ∉
      [(0x00 : Word), 0x01, 0x02, 0x03, 0x04, 0x14, 0x24, 0x34, 0x44, 0x54, 0x64, 0x74, 0x05, 0x06] := by decide

theorem witness_DecodeAndEncodeAgree :
    (Instr.pad 0).wellFormed = true ∧ (Instr.pad 7).wellFormed = true ∧ Instr.zeroize.wellFormed = true ∧
    decode 0x00000074 = .command (.pad 7) := by decide

theorem witness_StepRunsTheDecodedInstruction :
    ((busyWith 6 []).pend = some 6 ∧ decode 6 = .command .zeroize ∧ (busyWith 6 []).agenda = []) ∧
    ((busyWith 6 [.engine]).pend = some 6 ∧ (busyWith 6 [.engine]).agenda = .engine :: []) ∧
    ((busyWith 7 []).pend = some 7 ∧ decode 7 = .illegal .reservedOp ∧ (busyWith 7 []).agenda = []) ∧
    ((busyWith 7 [.engine]).pend = some 7 ∧ (busyWith 7 [.engine]).agenda = .engine :: []) ∧
    ((idleWith []).pend = none ∧ (idleWith []).agenda = []) ∧
    ((idleWith [.engine]).pend = none ∧ (idleWith [.engine]).agenda = .engine :: []) := by decide

theorem witness_CmdWriteIsAccepted :
    (idleWith [.write 0x04 4 0xFFFFFFFF]).pend = none ∧ (idleWith [.write 0x04 4 0xFFFFFFFF]).rst = false ∧
    (idleWith [.write 0x04 4 0xFFFFFFFF]).agenda = .write 0x04 4 0xFFFFFFFF :: [] := by decide

/-- The ignored writes at CMD, KEYLEN, BLK_L, BLK_R, KEY0 and KEY13; STATUS; INTEN; and the writes without effect at ID, RESULT and
the first and the last reserved word. -/
theorem witness_WritesWhileBusy :
    (∀ off, (busyWith 1 [.write off 4 7]).pend = some 1 ∧ (busyWith 1 [.write off 4 7]).rst = false ∧
      (busyWith 1 [.write off 4 7]).agenda = .write off 4 7 :: []) ∧
    (∃ i, i < 14 ∧ 0x20 = 0x20 + 4 * i) ∧ (∃ i, i < 14 ∧ 0x54 = 0x20 + 4 * i) ∧
    (∃ i, i < 10 ∧ 0x58 = 0x58 + 4 * i) ∧ (∃ i, i < 10 ∧ 0x7C = 0x58 + 4 * i) :=
  ⟨fun _ => ⟨rfl, rfl, rfl⟩, ⟨0, by decide⟩, ⟨13, by decide⟩, ⟨0, by decide⟩, ⟨9, by decide⟩⟩

/-- The clauses at those offsets, run. -/
theorem test_WritesWhileBusy_clauses :
    [0x04, 0x10, 0x18, 0x1C, 0x20, 0x54, 0x08, 0x0C, 0x00, 0x14, 0x58, 0x7C].map (fun off =>
      (next? (step { busyWith 1 [.write off 4 3] with done := true })).map (fun t => (statusWord t, intenWord t))) =
      List.replicate 6 (some (0xD, 0)) ++ [some (0x5, 0), some (0x5, 3)] ++ List.replicate 4 (some (0x5, 0)) := by decide

/-- A read, an ignored write and a write of INTEN while an ENCB is pending. -/
def hostNoise : List Event := [.read 0x18 4, .write 0x1C 4 5, .write 0x0C 4 3]

theorem witness_PendingCommandUsesItsOperandsAtAcceptance :
    ∃ t u v : State, (busyWith 2 []).pend = some 2 ∧ (busyWith 2 []).rst = false ∧
      (∀ e ∈ hostNoise, e.isWindowAccess = true) ∧ perform hostNoise (busyWith 2 []) = .next t ∧
      engineTurn (busyWith 2 []) = .next u ∧ engineTurn t = .next v :=
  ⟨_, _, _, rfl, rfl, by decide, rfl, rfl, rfl⟩

theorem witness_PendingCommandCompletes :
    (busyWith 2 (hostNoise ++ [.engine])).pend = some 2 ∧ (busyWith 2 (hostNoise ++ [.engine])).rst = false ∧
    (∀ e ∈ (busyWith 2 (hostNoise ++ [.engine])).agenda, e = .engine ∨ e.isWindowAccess = true) := by decide

theorem witness_RacingWriteMayFallOnEitherSide :
    (busyWith 0 [.write (regOffset .blkL) 4 7, .engine]).agenda = .write (regOffset .blkL) 4 7 :: .engine :: [] ∧
    (busyWith 0 [.engine, .write (regOffset .cmd) 4 7]).agenda = .engine :: .write (regOffset .cmd) 4 7 :: [] ∧
    (busyWith 0 [.engine, .write (regOffset .keylen) 4 7]).agenda = .engine :: .write (regOffset .keylen) 4 7 :: [] ∧
    (busyWith 0 [.engine, .write (regOffset .blkR) 4 7]).agenda = .engine :: .write (regOffset .blkR) 4 7 :: [] ∧
    (busyWith 0 [.engine, .write (regOffset (.key 13)) 4 7]).agenda = .engine :: .write (regOffset (.key 13)) 4 7 :: [] ∧
    (busyWith 0 []).pend = some 0 ∧ (busyWith 0 []).rst = false ∧ (Reg.key 13 = .cmd ∨ ∃ i, Reg.key 13 = .key i) :=
  ⟨rfl, rfl, rfl, rfl, rfl, rfl, rfl, .inr ⟨13, rfl⟩⟩

/-- A platform with the window at 0x40000000, master 0 alone admitted and the line on input 17. -/
def samplePlatform : Config.Parameters where
  bfeBase := 0x40000000
  bfeAccessPolicy := fun m => m == 0
  bfeIrqRoute := fun level => if level then [17] else []
  latKs := 521
  latBlk := 16
  latPad := 1
  latMisc := 1
  rstSynchronous := true
  rstHold := 2

theorem test_samplePlatform_legal : samplePlatform.legal = true := by decide

/-- The first and the last word of the window; its first and its last byte, admitted; and an access kept away, below and above. -/
theorem witness_WindowMapIsComplete :
    (0 < 128 ∧ 0 % 4 = 0) ∧ (124 < 128 ∧ 124 % 4 = 0) ∧
    samplePlatform.bfeAccessPolicy 0 = true ∧ (0x40000000 = samplePlatform.bfeBase + 0 ∧ 0 < 128) ∧
    (0x4000007F = samplePlatform.bfeBase + 127 ∧ 127 < 128) ∧ samplePlatform.bfeAccessPolicy 1 = false ∧
    0x3FFFFFFF < samplePlatform.bfeBase ∧ samplePlatform.bfeBase + 128 ≤ 0x40000080 := by decide

/-- The clauses at those values: an ID read, a byte read of the last byte, and three accesses that do not reach the engine. -/
theorem test_platform_accesses :
    [(0, 0x40000000, 4), (0, 0x4000007F, 1), (1, 0x40000000, 4), (0, 0x3FFFFFFF, 4), (0, 0x40000080, 4)].map
      (fun x : Nat × Nat × Nat =>
        (next? (runOnPlatform samplePlatform [.read x.1 x.2.1 x.2.2] State.reset)).map fun t => t.received) =
      [some [.data 0x42464531], some [.busError 127 1], some [], some [], some []] := by decide

/-- R190: DONE with DONEIE raises the platform's input. -/
theorem test_interruptInputs :
    interruptInputs samplePlatform { State.reset with done := true, doneIe := true } = [17] ∧
    interruptInputs samplePlatform State.reset = [] := by decide

theorem witness_DataWritesWhileIdle :
    (∀ off, (idleWith [.write off 4 7]).pend = none ∧ (idleWith [.write off 4 7]).rst = false ∧
      (idleWith [.write off 4 7]).agenda = .write off 4 7 :: []) ∧
    0x20 = 0x20 + 4 * (0 : Fin 14).val ∧ 0x54 = 0x20 + 4 * (13 : Fin 14).val ∧
    (∃ i, i < 10 ∧ 0x58 = 0x58 + 4 * i) ∧ (∃ i, i < 10 ∧ 0x7C = 0x58 + 4 * i) :=
  ⟨fun _ => ⟨rfl, rfl, rfl⟩, rfl, rfl, ⟨0, by decide⟩, ⟨9, by decide⟩⟩

/-- Writes to RESULT and to the reserved words while nothing is pending. -/
theorem test_idle_writes_without_effect :
    [0x14, 0x58, 0x7C].map (fun off =>
      (next? (step { idleWith [.write off 4 7] with npad := 3, ndata := 5 })).map fun t =>
        (statusWord t, resultWord t, t.blkL, t.blkR)) =
      List.replicate 3 (some (0, 0x35, 0, 0)) := by decide

/-- The last key register, run: its four bytes are K[52] to K[55] (R28). -/
theorem test_key13_holds_the_last_key_bytes :
    (next? (step (idleWith [.write 0x54 4 0x11223344]))).map (fun t => [51, 52, 53, 54, 55].map (keyByte t.key)) =
      some [0, 0x11, 0x22, 0x33, 0x44] := by decide

theorem witness_IntenRegister :
    (busyWith 1 [.write 0x0C 4 3]).rst = false ∧ (busyWith 1 [.write 0x0C 4 3]).agenda = .write 0x0C 4 3 :: [] := by decide

theorem witness_IdRegister :
    (idleWith [.read 0x00 4]).rst = false ∧ (idleWith [.read 0x00 4]).agenda = .read 0x00 4 :: [] ∧
    (busyWith 1 [.write 0x00 4 3]).agenda = .write 0x00 4 3 :: [] := by decide

theorem witness_StatusWriteClearsStickyBits :
    (busyWith 1 [.write 0x08 4 0xC]).rst = false ∧ (busyWith 1 [.write 0x08 4 0xC]).agenda = .write 0x08 4 0xC :: [] ∧
    (0xC : Word).getLsbD 2 = true ∧ (0xC : Word).getLsbD 3 = true := by decide

theorem witness_ReadsWhileIdle :
    (∀ off, (idleWith [.read off 4]).pend = none ∧ (idleWith [.read off 4]).rst = false ∧
      (idleWith [.read off 4]).agenda = .read off 4 :: []) ∧
    (∃ i, i < 14 ∧ 0x20 = 0x20 + 4 * i) ∧ (∃ i, i < 14 ∧ 0x54 = 0x20 + 4 * i) ∧
    (∃ i, i < 10 ∧ 0x58 = 0x58 + 4 * i) ∧ (∃ i, i < 10 ∧ 0x7C = 0x58 + 4 * i) :=
  ⟨fun _ => ⟨rfl, rfl, rfl⟩, ⟨0, by decide⟩, ⟨13, by decide⟩, ⟨0, by decide⟩, ⟨9, by decide⟩⟩

/-- The clauses at those offsets, run. -/
theorem test_ReadsWhileIdle_clauses :
    [0x00, 0x04, 0x08, 0x0C, 0x10, 0x14, 0x18, 0x1C, 0x20, 0x54, 0x58, 0x7C].map (fun off =>
      (next? (step { withBlock 5 6 with
        agenda := [.read off 4]
        done := true
        ovrIe := true
        keyLen := 9
        npad := 3
        ndata := 5 })).map (fun t => t.received)) =
      [some [.data 0x42464531], some [.data 0], some [.data 4], some [.data 2], some [.data 9], some [.data 0x35],
        some [.data 5], some [.data 6], some [.data 0], some [.data 0], some [.data 0], some [.data 0]] := by decide

theorem witness_ReadsWhileBusy :
    (∀ off, (busyWith 1 [.read off 4]).pend = some 1 ∧ (busyWith 1 [.read off 4]).rst = false ∧
      (busyWith 1 [.read off 4]).agenda = .read off 4 :: []) ∧
    (∃ i, i < 14 ∧ 0x20 = 0x20 + 4 * i) ∧ (∃ i, i < 14 ∧ 0x54 = 0x20 + 4 * i) ∧
    (∃ i, i < 10 ∧ 0x58 = 0x58 + 4 * i) ∧ (∃ i, i < 10 ∧ 0x7C = 0x58 + 4 * i) :=
  ⟨fun _ => ⟨rfl, rfl, rfl⟩, ⟨0, by decide⟩, ⟨13, by decide⟩, ⟨0, by decide⟩, ⟨9, by decide⟩⟩

theorem witness_ReadsChangeNoRegister :
    (∃ t, (busyWith 1 [.read 0x18 4]).agenda = .read 0x18 4 :: [] ∧ step (busyWith 1 [.read 0x18 4]) = .next t) ∧
    (∃ t, (idleWith [.read 0x7F 1]).agenda = .read 0x7F 1 :: [] ∧ step (idleWith [.read 0x7F 1]) = .next t) :=
  ⟨⟨_, rfl, rfl⟩, ⟨_, rfl, rfl⟩⟩

theorem witness_OtherWidthsGetABusError :
    (idleWith [.read 127 1]).rst = false ∧ 127 < 128 ∧ (1 ≠ 4 ∨ 127 % 4 ≠ 0) ∧ (4 ≠ 4 ∨ 2 % 4 ≠ 0) ∧
    (idleWith [.read 127 1]).agenda = .read 127 1 :: [] ∧
    (idleWith [.write 2 4 9]).agenda = .write 2 4 9 :: [] := by decide

theorem witness_AccessesWithoutAStep :
    ((idleWith [.read 128 4]).agenda = .read 128 4 :: [] ∧ (idleWith [.read 128 4]).rst = false ∧ 128 ≤ 128) ∧
    ((assertReset (idleWith [.write 4 4 0])).agenda = .write 4 4 0 :: [] ∧
      (assertReset (idleWith [.write 4 4 0])).rst = true) := by decide

theorem witness_InterruptLineFollowsItsEnables :
    (idleWith [.write 0x0C 4 1]).rst = false ∧ (idleWith [.write 0x0C 4 1]).agenda = .write 0x0C 4 1 :: [] ∧
    ({ idleWith [] with done := true } : State).done = true ∧ (1 : Word).getLsbD 0 = true ∧
    ({ idleWith [] with ovr := true } : State).ovr = true ∧ (2 : Word).getLsbD 1 = true ∧
    (0 : Word).getLsbD 0 = false ∧ (0 : Word).getLsbD 1 = false := by decide

/-- KEYVALID rises, KEYVALID falls, ERR changes. -/
theorem witness_KeyvalidAndErrAreWrittenOnlyByCompletion :
    (∃ t, step { withKeyLen 1 with pend := some 1 } = .next t ∧
      ({ withKeyLen 1 with pend := some 1 } : State).keyValid = false ∧ t.keyValid = true) ∧
    (∃ t, step { keyed CipherState.zero 1 2 with pend := some 6 } = .next t ∧
      ({ keyed CipherState.zero 1 2 with pend := some 6 } : State).keyValid = true ∧ t.keyValid = false) ∧
    (∃ t, step (busyWith 7 []) = .next t ∧ t.err ≠ (busyWith 7 []).err) :=
  ⟨⟨_, rfl, rfl, rfl⟩, ⟨_, rfl, rfl, rfl⟩, ⟨complete .illegalCmd (busyWith 7 []), rfl, by decide⟩⟩

/-- DONE rises and falls, OVR rises and falls. -/
theorem witness_StickyBitsAreSticky :
    (∃ t, step (busyWith 0 []) = .next t ∧ (busyWith 0 []).done = false ∧ t.done = true) ∧
    (∃ t, step { idleWith [.write 0x08 4 4] with done := true } = .next t ∧
      ({ idleWith [.write 0x08 4 4] with done := true } : State).done = true ∧ t.done = false) ∧
    (∃ t, step (busyWith 0 [.write 0x54 4 4]) = .next t ∧ (busyWith 0 [.write 0x54 4 4]).ovr = false ∧ t.ovr = true) ∧
    (∃ t, step { idleWith [.rst true] with ovr := true } = .next t ∧
      ({ idleWith [.rst true] with ovr := true } : State).ovr = true ∧ t.ovr = false) :=
  ⟨⟨_, rfl, rfl, rfl⟩, ⟨_, rfl, rfl, rfl⟩, ⟨_, rfl, rfl, rfl⟩, ⟨_, rfl, rfl, rfl⟩⟩

theorem witness_CipherStateIsReadOnlyBetweenKeys :
    (∃ t, step { keyed zeroKeyMixed 1 2 with pend := some 2 } = .next t) ∧ (∃ t, step (busyWith 6 []) = .next t) ∧
    (∃ t, step (idleWith [.rst true]) = .next t) := ⟨⟨_, rfl⟩, ⟨_, rfl⟩, ⟨_, rfl⟩⟩

/-- The invariant while `rst` is asserted, with tables that are not zero, and a step of it. -/
theorem witness_EveryStepKeepsTheInvariant_in_reset :
    Inv { assertReset (idleWith [.rst false]) with cipher := zeroKeyMixed } ∧
    ({ assertReset (idleWith [.rst false]) with cipher := zeroKeyMixed } : State).rst = true ∧
    ∃ t, step { assertReset (idleWith [.rst false]) with cipher := zeroKeyMixed } = .next t :=
  ⟨⟨.inl rfl, .inl ⟨rfl, rfl⟩, fun h => (by cases h), fun _ => rfl⟩, rfl, _, rfl⟩

/-- The invariant in a state with a key and an error, and a step of it. -/
theorem witness_EveryStepKeepsTheInvariant :
    Inv { keyed (ks [0]) 1 2 with err := 6, npad := 8, pend := some 2 } ∧
    ∃ t, step { keyed (ks [0]) 1 2 with err := 6, npad := 8, pend := some 2 } = .next t := by
  refine ⟨⟨?_, ?_, ?_, ?_⟩, ?_⟩
  · exact .inr (.inr (.inr (.inr rfl)))
  · exact .inr (by decide)
  · intro _
    exact ⟨[0], by decide, by decide, rfl⟩
  · intro h
    cases h
  · rw [step_nil rfl, engineTurn_some rfl]
    exact completeWord_answers_next _ _

theorem witness_TablesAreUnobservableWithoutAKey :
    SameButHiddenTables { busyWith 2 [] with cipher := zeroKeyMixed } (busyWith 2 []) ∧
    zeroKeyMixed.p[0] ≠ CipherState.zero.p[0] :=
  ⟨⟨rfl, fun h => by cases h⟩, by decide +kernel⟩

theorem witness_KeyBytesAreUnobservable :
    SameButKeys (busyWith 2 []) { busyWith 2 [] with key := Vector.replicate 14 7 } ∧
    ¬ (EnginesTurn (busyWith 2 []) ∧ ∃ c, (busyWith 2 []).pend = some c ∧ decode c = .command .keysched) := by
  refine ⟨rfl, ?_⟩
  rintro ⟨-, c, hc, hd⟩
  cases hc
  cases hd

/-- The two halves after `i` rounds with the whitening indices `ix`. -/
def roundsFrom (k : CipherState) (ix : Nat → Fin 18) (b : Word × Word) : Nat → Word × Word
  | 0 => b
  | i + 1 => feistelRound k (roundsFrom k ix b i) (ix i)

/-- The whitening index `j`. -/
def index18 (j : Nat) : Fin 18 := if h : j < 18 then ⟨j, h⟩ else 0

/-- For all tables, a block has its rounds, in either order. -/
theorem witness_BlockFunctionsFollowTheRounds (k : CipherState) (b : Word × Word) :
    (∃ l r : Nat → Word, (l 0, r 0) = b ∧
      ∀ i, (h : i < 16) → l (i + 1) = r i ^^^ mix k.s (l i ^^^ k.p[i]) ∧ r (i + 1) = l i ^^^ k.p[i]) ∧
    (∃ l r : Nat → Word, (l 0, r 0) = b ∧
      ∀ i, (h : i < 16) → l (i + 1) = r i ^^^ mix k.s (l i ^^^ k.p[17 - i]) ∧ r (i + 1) = l i ^^^ k.p[17 - i]) := by
  refine ⟨⟨fun i => (roundsFrom k index18 b i).1, fun i => (roundsFrom k index18 b i).2,
    rfl, fun i h => ?_⟩, ⟨fun i => (roundsFrom k (fun j => index18 (17 - j)) b i).1,
    fun i => (roundsFrom k (fun j => index18 (17 - j)) b i).2, rfl, fun i h => ?_⟩⟩
  · simp [roundsFrom, index18, feistelRound, show i < 18 by omega]
  · simp [roundsFrom, index18, feistelRound, show 17 - i < 18 by omega]

theorem witness_BlockRoundTrip :
    (∃ t, exec .encb (keyed zeroKeyMixed 1 2) = .next t ∧ (keyed zeroKeyMixed 1 2).keyValid = true ∧
      t.keyValid = true ∧ t.cipher = t.cipher) ∧
    (∃ t, exec .decb (keyed zeroKeyMixed 1 2) = .next t ∧ t.keyValid = true) :=
  ⟨⟨_, rfl, rfl, rfl, rfl⟩, ⟨_, rfl, rfl⟩⟩

theorem witness_KeyMixingReadsTheKeyCyclically : ([0xF0, 0xE1, 0xD2] : List Byte) ≠ [] := by decide

/-- The place of the output block number `m` (R97). -/
def putNth (m : Nat) (k : CipherState) (b : Word × Word) : CipherState :=
  if h : m < 9 then putP k ⟨m, h⟩ b
  else if h' : m - 9 < 512 then putS k ⟨(m - 9) / 128, by omega⟩ ⟨(m - 9) % 128, by omega⟩ b
  else k

/-- The chain after `m` encryptions. -/
def chainAfter (k : List Byte) : Nat → Chain
  | 0 => chainStart (mixKey k)
  | m + 1 => chainStep (putNth m) (chainAfter k m)

/-- Every key has the chain of tables and blocks the statement speaks of. -/
theorem witness_KeyScheduleIsTheChain (k : List Byte) :
    ∃ (tab : Nat → CipherState) (blk : Nat → Word × Word), tab 0 = mixKey k ∧ blk 0 = (0, 0) ∧
      (∀ m, m < 521 → blk (m + 1) = encW (tab m) (blk m)) ∧
      (∀ j : Fin 9, tab (j.val + 1) = putP (tab j.val) j (blk (j.val + 1))) ∧
      (∀ (t : Fin 4) (j : Fin 128),
        tab (9 + 128 * t.val + j.val + 1) = putS (tab (9 + 128 * t.val + j.val)) t j (blk (9 + 128 * t.val + j.val + 1))) := by
  refine ⟨fun m => (chainAfter k m).tables, fun m => (chainAfter k m).block, rfl, rfl, fun m _ => rfl, fun j => ?_,
    fun t j => ?_⟩
  · simp [chainAfter, putNth]
  · have h1 : ¬ 9 + 128 * t.val + j.val < 9 := by omega
    have h2 : 9 + 128 * t.val + j.val - 9 < 512 := by omega
    have h3 : (9 + 128 * t.val + j.val - 9) / 128 = t.val := by omega
    have h4 : (9 + 128 * t.val + j.val - 9) % 128 = j.val := by omega
    simp only [chainAfter, chainStep_tables, chainStep_block, putNth, h1, h2, h3, h4, dite_true, dite_false]

theorem witness_CyclicKeyEquivalence :
    ∀ q, q < 72 → keyStream [0xAB, 0xCD] q = keyStream [0xAB, 0xCD, 0xAB, 0xCD] q := by decide

/-- Two states with LEN = 1 and the same first key byte, the other key bytes different. -/
theorem witness_KeyScheduleDependsOnlyOnTheKey :
    ∃ s s' t t' : State, s.keyLen = s'.keyLen ∧ 1 ≤ s.keyLen.toNat ∧ s.keyLen.toNat ≤ 56 ∧
      (∀ q, q < s.keyLen.toNat → keyByte s.key q = keyByte s'.key q) ∧
      keyByte s.key 1 ≠ keyByte s'.key 1 ∧ exec .keysched s = .next t ∧ exec .keysched s' = .next t' ∧
      ∃ u u', exec .encb { t with blkL := 1, blkR := 2 } = .next u ∧ exec .encb { t' with blkL := 1, blkR := 2 } = .next u' := by
  refine ⟨{ withKeyLen 1 with key := Vector.replicate 14 0x01020304 },
    { withKeyLen 1 with key := Vector.replicate 14 0x01050607 }, _, _, rfl, by decide, by decide, ?_, by decide, rfl, rfl, ?_⟩
  · intro q hq
    have h : q = 0 := by
      have : q < 1 := hq
      omega
    subst h
    decide
  · obtain ⟨u, hu⟩ := exec_answers_next .encb _
    obtain ⟨u', hu'⟩ := exec_answers_next .encb _
    exact ⟨u, u', hu, hu'⟩

theorem witness_PadProperties : 8 = 8 - ([] : List Byte).length % 8 ∧ 1 = 8 - (List.replicate 7 (0 : Byte)).length % 8 := by decide

theorem witness_UnpadInvertsPad :
    unpadBytes [0x41, 5, 5, 5, 5, 5] = some [0x41] ∧ 1 ≤ 5 ∧ 5 ≤ 8 ∧
    ([0x41, 5, 5, 5, 5, 5] : List Byte) = [0x41] ++ List.replicate 5 (BitVec.ofNat 8 5) := by decide

/-- A data of nine bytes and one of eight: the last block holds what is left of it. -/
theorem witness_PadCommandRealisesPad :
    (blockBytes (withBlock 0x09FFFFFF 0xFFFFFFFF).blkL (withBlock 0x09FFFFFF 0xFFFFFFFF).blkR).take
      (([1, 2, 3, 4, 5, 6, 7, 8, 9] : List Byte).length % 8) =
        ([1, 2, 3, 4, 5, 6, 7, 8, 9] : List Byte).drop (8 * (([1, 2, 3, 4, 5, 6, 7, 8, 9] : List Byte).length / 8)) ∧
    (blockBytes (withBlock 5 6).blkL (withBlock 5 6).blkR).take (([1, 2, 3, 4, 5, 6, 7, 8] : List Byte).length % 8) =
      ([1, 2, 3, 4, 5, 6, 7, 8] : List Byte).drop (8 * (([1, 2, 3, 4, 5, 6, 7, 8] : List Byte).length / 8)) := by decide

/-- A sequence of one block on which unpad succeeds, and one on which it fails. -/
theorem witness_UnpadCommandRealisesUnpad :
    ((blockBytes 0x48656C6C 0x6F030303).length = 8 * 1 ∧
      blockBytes (withBlock 0x48656C6C 0x6F030303).blkL (withBlock 0x48656C6C 0x6F030303).blkR =
        (blockBytes 0x48656C6C 0x6F030303).drop (8 * 1 - 8) ∧
      unpadBytes (blockBytes 0x48656C6C 0x6F030303) = some [0x48, 0x65, 0x6C, 0x6C, 0x6F]) ∧
    unpadBytes (blockBytes 0x11223344 0x55667700) = none := by decide

theorem witness_StreamRoundTrip :
    (1 ≤ ([0xF0] : List Byte).length ∧ ([0xF0] : List Byte).length ≤ 56) ∧
    (1 ≤ (List.replicate 56 (0 : Byte)).length ∧ (List.replicate 56 (0 : Byte)).length ≤ 56) := by decide

theorem witness_HostEncryptRealisesEncryptData :
    Idle (keyed zeroKeyMixed 1 2) ∧ (keyed zeroKeyMixed 1 2).keyValid = true := ⟨⟨rfl, rfl⟩, rfl⟩

/-- Under the all-zero tables DecW swaps the halves: a success and the two failures. -/
theorem witness_HostDecryptRealisesDecryptData :
    Idle (keyed CipherState.zero 1 2) ∧ (keyed CipherState.zero 1 2).keyValid = true ∧
    decryptData CipherState.zero (List.replicate 8 8) = .ok ([], 0) ∧
    decryptData CipherState.zero [] = .error .invalidLength ∧
    decryptData CipherState.zero (List.replicate 8 0) = .error .invalidPadding := by
  refine ⟨⟨rfl, rfl⟩, rfl, ?_, ?_, ?_⟩ <;> rfl

end Sys2Proof.Tests
end

/-! # The registers INTEN and ID (10_state.md R21, R24) -/

namespace Sys2Proof.Machine

/-! ## A 32-bit access at a register's own offset -/

/-- R50: every register lies in the window. -/
theorem regOffset_lt (r : Reg) : regOffset r < 128 := by
  cases r <;> simp only [regOffset] <;> omega

/-- R20: the access at a register's offset reaches that register. The word numbers of KEYi and of the reserved words are 8 + i and
22 + i. -/
theorem regAt_regOffset (r : Reg) : regAt (regOffset r) 4 = some r := by
  cases r with
  | key i =>
    have hw : (0x20 + 4 * i.val) / 4 = i.val + 8 := by omega
    simp [regAt, regOffset, Config.accessBytes, hw, regOfWord]
  | reserved i =>
    have hw : (0x58 + 4 * i.val) / 4 = i.val + 14 + 8 := by omega
    have ha : (0x58 + 4 * i.val) % 4 = 0 := by omega
    simp [regAt, regOffset, Config.accessBytes, hw, ha, regOfWord]
  | _ => rfl

/-- R57, R58: a write at the offset of register `r`, out of reset, busy or not. -/
theorem step_write_regOffset (r : Reg) {s : State} {v : Word} {es : List Event} (hr : s.rst = false)
    (ha : s.agenda = .write (regOffset r) 4 v :: es) : step s = .next (writeReg r v { s with agenda := es }) :=
  step_write hr (regOffset_lt r) (regAt_regOffset r) ha

/-- R56, R187: a read at the offset of a register whose reads are no draws, out of reset, busy or not. -/
theorem step_read_regOffset {r : Reg} (hd : drawnWhileBusy r = false) {s : State} {es : List Event} (hr : s.rst = false)
    (ha : s.agenda = .read (regOffset r) 4 :: es) :
    step s = .next (respond (.data (regValue r s)) { s with agenda := es }) := by
  have hv : regValue r { s with agenda := es } = regValue r s := by cases r <;> rfl
  rw [step_read hr (regOffset_lt r) (regAt_regOffset r) ha, readReg_value (.inr hd), hv]

/-! ## INTEN -/

/-- Two one-bit fields at bits 0 and 1 make a number below 4. -/
theorem toNat_bitAt_zero_or_bitAt_one : ∀ a b : Bool, (bitAt a 0 ||| bitAt b 1).toNat = a.toNat + 2 * b.toNat := by
  decide

/-- R24: INTEN as a number. -/
theorem toNat_intenWord (s : State) : (intenWord s).toNat = s.doneIe.toNat + 2 * s.ovrIe.toNat :=
  toNat_bitAt_zero_or_bitAt_one s.doneIe s.ovrIe

/-- Settles O27: the read value is the sum of the two fields, both 0 in the reset state, and a write reaches `setInten`, which no
pending command guards. -/
theorem intenRegister : Obligations.IntenRegister := by
  refine ⟨toNat_intenWord, ?_, fun s v es hr ha => ?_⟩
  · exact BitVec.eq_of_toNat_eq (toNat_intenWord State.reset)
  · exact step_write_regOffset .inten hr ha

/-! ## ID -/

/-- Settles O28: ID's reads are no draws, its value is a constant, and its writes are ignored. -/
theorem idRegister : Obligations.IdRegister := fun _ _ hr =>
  ⟨fun ha => step_read_regOffset (r := .id) rfl hr ha, fun _ ha => step_write_regOffset .id hr ha⟩

end Sys2Proof.Machine

/-! # The opcode map (30_encoding.md R70 to R76) -/

namespace Sys2Proof

/-! ## The commands and their fields -/

/-- R75: the commands of the opcode map, in its order. -/
def legalInstrs : List Instr :=
  [.nop, .keysched, .encb, .decb, .pad 0, .pad 1, .pad 2, .pad 3, .pad 4, .pad 5, .pad 6, .pad 7, .unpad, .zeroize]

theorem wellFormed_iff_mem_legalInstrs (i : Instr) : i.wellFormed = true ↔ i ∈ legalInstrs := by
  cases i with
  | pad r =>
    simp only [Instr.wellFormed, decide_eq_true_eq, legalInstrs, List.mem_cons, Instr.pad.injEq, reduceCtorEq,
      List.not_mem_nil, false_or, or_false]
    omega
  | _ => decide

/-- R75: the column OP of the opcode map. -/
def Instr.op : Instr → BitVec 4
  | .nop => 0
  | .keysched => 1
  | .encb => 2
  | .decb => 3
  | .pad _ => 4
  | .unpad => 5
  | .zeroize => 6

/-- R75: the column ARG of the opcode map. -/
def Instr.arg : Instr → BitVec 4
  | .pad r => BitVec.ofNat 4 r
  | _ => 0

/-! ## A word decodes as a command exactly if it encodes that command -/

/-- R76: the fields of an accepted word whose OP is that of the command `j` without an operand. -/
theorem fields_of_decodeNoArg {op arg : BitVec 4} {i j : Instr} (h : decodeNoArg arg j = .command i) (hop : op = j.op)
    (harg : j.arg = 0) (hj : j.wellFormed = true) : op = i.op ∧ arg = i.arg ∧ i.wellFormed = true := by
  obtain ⟨ha, rfl⟩ := decodeNoArg_command h
  exact ⟨hop, ha.trans harg.symm, hj⟩

/-- R76: the fields of an accepted word whose OP is PAD's. -/
theorem fields_of_decodePad {op arg : BitVec 4} {i : Instr} (h : decodePad arg = .command i) (hop : op = 4) :
    op = i.op ∧ arg = i.arg ∧ i.wellFormed = true := by
  obtain ⟨ha, rfl⟩ := decodePad_command h
  exact ⟨hop, by simp [Instr.arg], decide_eq_true ha⟩

/-- R71, R72, R73: what decoding as a command says about the word's fields. -/
theorem fields_of_decode {c : Word} {i : Instr} (h : decode c = .command i) :
    rsvField c = 0 ∧ opField c = i.op ∧ argField c = i.arg ∧ i.wellFormed = true := by
  have hr : rsvField c = 0 := by
    by_contra hr
    rw [decode_reserved hr] at h
    cases h
  refine ⟨hr, ?_⟩
  rw [decode, if_neg (not_not.mpr hr)] at h
  split at h
  · next hop => exact fields_of_decodeNoArg h (BitVec.eq_of_toNat_eq hop) rfl rfl
  · next hop => exact fields_of_decodeNoArg h (BitVec.eq_of_toNat_eq hop) rfl rfl
  · next hop => exact fields_of_decodeNoArg h (BitVec.eq_of_toNat_eq hop) rfl rfl
  · next hop => exact fields_of_decodeNoArg h (BitVec.eq_of_toNat_eq hop) rfl rfl
  · next hop => exact fields_of_decodePad h (BitVec.eq_of_toNat_eq hop)
  · next hop => exact fields_of_decodeNoArg h (BitVec.eq_of_toNat_eq hop) rfl rfl
  · next hop => exact fields_of_decodeNoArg h (BitVec.eq_of_toNat_eq hop) rfl rfl
  · cases h

/-- R75: a command is the decoding of at most one word, since it fixes all three fields. -/
theorem decode_command_injective {c d : Word} {i : Instr} (hc : decode c = .command i) (hd : decode d = .command i) :
    c = d := by
  obtain ⟨hcr, hco, hca, -⟩ := fields_of_decode hc
  obtain ⟨hdr, hdo, hda, -⟩ := fields_of_decode hd
  exact eq_of_fields (hco.trans hdo.symm) (hca.trans hda.symm) (hcr.trans hdr.symm)

theorem decode_encode_of_mem_legalInstrs : ∀ i ∈ legalInstrs, decode (encode i) = .command i := by decide

theorem decode_encode {i : Instr} (h : i.wellFormed = true) : decode (encode i) = .command i :=
  decode_encode_of_mem_legalInstrs i ((wellFormed_iff_mem_legalInstrs i).mp h)

theorem decode_eq_command_iff (c : Word) (i : Instr) :
    decode c = .command i ↔ i.wellFormed = true ∧ encode i = c := by
  constructor
  · intro h
    obtain ⟨-, -, -, hi⟩ := fields_of_decode h
    exact ⟨hi, decode_command_injective (decode_encode hi) h⟩
  · rintro ⟨hi, rfl⟩
    exact decode_encode hi

/-- R76: the decoder answers a command or `Illegal`, never both. -/
theorem decode_illegal_iff (c : Word) : (∃ why, decode c = .illegal why) ↔ ¬ ∃ i, decode c = .command i := by
  cases decode c <;> simp

/-! ## The fourteen words -/

/-- R75: the opcode map's pairs are the commands with their encodings. -/
theorem map_encode_pair_legalInstrs :
    legalInstrs.map (fun i => (encode i, i)) =
      [(0x00, .nop), (0x01, .keysched), (0x02, .encb), (0x03, .decb), (0x04, .pad 0), (0x14, .pad 1), (0x24, .pad 2),
        (0x34, .pad 3), (0x44, .pad 4), (0x54, .pad 5), (0x64, .pad 6), (0x74, .pad 7), (0x05, .unpad),
        (0x06, .zeroize)] := by decide

/-- R75: the opcode map's words are the encodings of its commands. -/
theorem map_encode_legalInstrs :
    legalInstrs.map encode =
      [0x00, 0x01, 0x02, 0x03, 0x04, 0x14, 0x24, 0x34, 0x44, 0x54, 0x64, 0x74, 0x05, 0x06] := by decide

theorem decode_eq_command_iff_mem_map (c : Word) (i : Instr) :
    decode c = .command i ↔ (c, i) ∈ legalInstrs.map (fun i => (encode i, i)) := by
  rw [decode_eq_command_iff, wellFormed_iff_mem_legalInstrs, List.mem_map]
  constructor
  · rintro ⟨hi, rfl⟩
    exact ⟨i, hi, rfl⟩
  · rintro ⟨j, hj, h⟩
    cases h
    exact ⟨hj, rfl⟩

theorem exists_decode_eq_command_iff_mem_map (c : Word) :
    (∃ i, decode c = .command i) ↔ c ∈ legalInstrs.map encode := by
  simp only [decode_eq_command_iff, wellFormed_iff_mem_legalInstrs, List.mem_map]

/-- Settles O15: a word decodes as a command exactly if it encodes it, and the fourteen pairs are the legal commands with their
encodings. -/
theorem fourteenWordsAreLegal : Obligations.FourteenWordsAreLegal := by
  constructor
  · intro c i
    rw [← map_encode_pair_legalInstrs]
    exact decode_eq_command_iff_mem_map c i
  · intro c
    rw [← map_encode_legalInstrs, decode_illegal_iff, exists_decode_eq_command_iff_mem_map]

end Sys2Proof

/-! # The key schedule (40_key_schedule.md R91 to R101) -/

namespace Sys2Proof.Machine

/-! ## Key mixing -/

/-- Settles O48: a whitening word is PI_P xor the key word read from the cyclic stream, and the S tables are the ROM's. -/
theorem keyMixingReadsTheKeyCyclically : Obligations.KeyMixingReadsTheKeyCyclically := fun k _ =>
  ⟨mixKey_p k, rfl, rfl, rfl, rfl⟩

/-! ## The chain of encryptions -/

/-- A fold over the indices below `m` runs along any sequence that it follows step by step. -/
theorem foldl_finRange_eq_of_step {α : Type} (g : Nat → α) {m : Nat} (f : α → Fin m → α)
    (h : ∀ j : Fin m, f (g j.val) j = g (j.val + 1)) : (List.finRange m).foldl f (g 0) = g m := by
  induction m with
  | zero => rfl
  | succ m ih =>
    have hinit : (List.finRange m).foldl (fun a j => f a j.castSucc) (g 0) = g m := ih _ fun j => h j.castSucc
    rw [List.finRange_succ_last, List.foldl_append, List.foldl_map, hinit]
    exact h (Fin.last m)

/-- R97: entry `m` of a sequence of tables and one of blocks, as a state of the chain. -/
def chainAt (tab : Nat → CipherState) (blk : Nat → Word × Word) (m : Nat) : Chain :=
  { tables := tab m, block := blk m }

section

variable {tab : Nat → CipherState} {blk : Nat → Word × Word}

/-- R96, R97: a step of the chain goes from one entry to the next. -/
theorem chainStep_chainAt {put : CipherState → Word × Word → CipherState} {m : Nat}
    (hblk : blk (m + 1) = encW (tab m) (blk m)) (htab : tab (m + 1) = put (tab m) (blk (m + 1))) :
    chainStep put (chainAt tab blk m) = chainAt tab blk (m + 1) := by
  simp only [chainAt, chainStep, htab, hblk]

/-- R97: `fillP` takes the chain from entry 0 to entry 9. -/
theorem fillP_chainAt (hblk : ∀ m, m < 521 → blk (m + 1) = encW (tab m) (blk m))
    (htab : ∀ j : Fin 9, tab (j.val + 1) = putP (tab j.val) j (blk (j.val + 1))) :
    fillP (chainAt tab blk 0) = chainAt tab blk 9 :=
  foldl_finRange_eq_of_step (chainAt tab blk) _ fun j => chainStep_chainAt (hblk _ (by omega)) (htab j)

/-- R97: `fillS` for table `t` takes the chain 128 entries on. -/
theorem fillS_chainAt (hblk : ∀ m, m < 521 → blk (m + 1) = encW (tab m) (blk m)) (t : Fin 4)
    (htab : ∀ j : Fin 128, tab (9 + 128 * t.val + j.val + 1) =
      putS (tab (9 + 128 * t.val + j.val)) t j (blk (9 + 128 * t.val + j.val + 1))) :
    fillS (chainAt tab blk (9 + 128 * t.val)) t = chainAt tab blk (9 + 128 * (t.val + 1)) :=
  foldl_finRange_eq_of_step (fun m => chainAt tab blk (9 + 128 * t.val + m)) _ fun j =>
    chainStep_chainAt (hblk _ (by omega)) (htab j)

end

/-- Settles O50: the chain passes from entry 0 to entry 9 by P, and from there to entry 521 by the four tables of 128 entries each. -/
theorem keyScheduleIsTheChain : Obligations.KeyScheduleIsTheChain := by
  intro k tab blk htab0 hblk0 hblk hP hS
  have hstart : chainStart (mixKey k) = chainAt tab blk 0 := by rw [chainAt, htab0, hblk0, chainStart]
  have hfill : (List.finRange 4).foldl fillS (chainAt tab blk 9) = chainAt tab blk 521 :=
    foldl_finRange_eq_of_step (fun t => chainAt tab blk (9 + 128 * t)) fillS fun t => fillS_chainAt hblk t (hS t)
  rw [ks, replaceTables, hstart, fillP_chainAt hblk hP, hfill, chainAt]

/-! ## What KS depends on -/

/-- R92: the key words of the 18 whitening indices read the stream at indices below 72. -/
theorem keyWord_congr {k k' : List Byte} (h : ∀ q, q < 72 → keyStream k q = keyStream k' q) {i : Nat} (hi : i < 18) :
    keyWord k i = keyWord k' i := by
  rw [keyWord, keyWord, h (4 * i) (by omega), h (4 * i + 1) (by omega), h (4 * i + 2) (by omega), h (4 * i + 3) (by omega)]

/-- R101: KS reads the key only through the first 72 bytes of its stream. -/
theorem ks_eq_of_keyStream_eq {k k' : List Byte} (h : ∀ q, q < 72 → keyStream k q = keyStream k' q) : ks k = ks k' :=
  ks_congr (mixKey_congr fun _ hi => keyWord_congr h hi)

/-- Settles O52: KS reads the key only through its stream, and the streams of the rule's examples agree. -/
theorem cyclicKeyEquivalence : Obligations.CyclicKeyEquivalence :=
  ⟨fun _ _ => ks_eq_of_keyStream_eq, ks_eq_of_keyStream_eq (by decide), ks_eq_of_keyStream_eq (by decide)⟩

/-- R94: the key of the key registers is LEN and the first LEN key bytes. -/
theorem stateKey_congr {s s' : State} (hlen : s.keyLen = s'.keyLen)
    (hkey : ∀ q, q < s.keyLen.toNat → keyByte s.key q = keyByte s'.key q) : stateKey s = stateKey s' := by
  rw [stateKey, stateKey, ← hlen]
  exact List.map_congr_left fun q hq => hkey q (List.mem_range.mp hq)

/-- R95: KEYSCHED with a legal LEN gives KS of the key, and the key flag. -/
theorem exec_keysched_legal {s t : State} (hmin : 1 ≤ s.keyLen.toNat) (hmax : s.keyLen.toNat ≤ 56)
    (h : exec .keysched s = .next t) : t.cipher = ks (stateKey s) ∧ t.keyValid = true := by
  have hlegal : execKeysched s = .next (complete .none { s with cipher := ks (stateKey s), keyValid := true }) :=
    if_pos ((legalKeyLen_iff _).mpr ⟨hmin, hmax⟩)
  cases hlegal.symm.trans h
  exact ⟨rfl, rfl⟩

/-- R126, R130: ENCB and DECB each transform the block by one block function. -/
theorem exec_eq_transformBlock {i : Instr} (h : i = .encb ∨ i = .decb) : ∃ f, ∀ s, exec i s = transformBlock f s := by
  obtain rfl | rfl := h
  · exact ⟨encW, fun _ => rfl⟩
  · exact ⟨decW, fun _ => rfl⟩

/-- R126, R130: the result of a block command with a key depends only on the CipherState and the block. -/
theorem transformBlock_congr {f : CipherState → Word × Word → Word × Word} {s s' u u' : State}
    (hu : transformBlock f s = .next u) (hu' : transformBlock f s' = .next u') (hk : s.keyValid = true)
    (hk' : s'.keyValid = true) (hc : s.cipher = s'.cipher) (hl : s.blkL = s'.blkL) (hr : s.blkR = s'.blkR) :
    u.blkL = u'.blkL ∧ u.blkR = u'.blkR := by
  rw [transformBlock_keyed hk] at hu
  rw [transformBlock_keyed hk'] at hu'
  cases hu
  cases hu'
  simp only [complete_blkL, complete_blkR, hc, hl, hr, and_self]

/-- Settles O53: both completions take KS of the same key, and the block commands then read equal tables and equal blocks. -/
theorem keyScheduleDependsOnlyOnTheKey : Obligations.KeyScheduleDependsOnlyOnTheKey := by
  intro s s' t t' hlen hmin hmax hkey ht ht'
  obtain ⟨hc, hk⟩ := exec_keysched_legal hmin hmax ht
  obtain ⟨hc', hk'⟩ := exec_keysched_legal (hlen ▸ hmin) (hlen ▸ hmax) ht'
  have hcipher : t.cipher = t'.cipher := by rw [hc, hc', stateKey_congr hlen hkey]
  refine ⟨hcipher, fun i l r u u' hi hu hu' => ?_⟩
  obtain ⟨f, hf⟩ := exec_eq_transformBlock hi
  rw [hf] at hu hu'
  exact transformBlock_congr hu hu' hk hk' hcipher rfl rfl

end Sys2Proof.Machine

/-! # The block cipher (42_block_cipher.md R120 to R130) -/

namespace Sys2Proof.Machine

/-! ## The mixing function -/

/-- Settles O44: the four bytes of the word are the four table indices. -/
theorem mixingFunction : Obligations.MixingFunction := by
  intro t a b c d
  rw [mix, byteOf_be32_zero, byteOf_be32_one, byteOf_be32_two, byteOf_be32_three]
  rfl

/-! ## The rounds -/

/-- R124, R125: the rounds run along any halves that follow them one by one. -/
theorem feistel_eq_of_rounds (k : CipherState) {m : Nat} (ix : Fin m → Fin 18) (wr wl : Fin 18) {l r : Nat → Word}
    (hl : ∀ i : Fin m, l (i.val + 1) = r i.val ^^^ mix k.s (l i.val ^^^ k.p[ix i]))
    (hr : ∀ i : Fin m, r (i.val + 1) = l i.val ^^^ k.p[ix i]) :
    feistel k ((List.finRange m).map ix) wr wl (l 0, r 0) = (r m ^^^ k.p[wl], l m ^^^ k.p[wr]) := by
  have hround (i : Fin m) : feistelRound k (l i.val, r i.val) (ix i) = (l (i.val + 1), r (i.val + 1)) := by
    rw [feistelRound, hl, hr]
  have hrounds := foldl_finRange_eq_of_step (fun i => (l i, r i)) (fun b i => feistelRound k b (ix i)) hround
  rw [feistel, List.foldl_map, hrounds]

theorem encOrder_eq_map : encOrder = (List.finRange 16).map fun i => ⟨i.val, by omega⟩ := rfl

theorem decOrder_eq_map : decOrder = (List.finRange 16).map fun i => ⟨17 - i.val, by omega⟩ := rfl

/-- Settles O45: the two orders are the rounds 0 to 15 with the whitening indices `i` and `17 - i`. -/
theorem blockFunctionsFollowTheRounds : Obligations.BlockFunctionsFollowTheRounds := by
  refine fun k l r => ⟨fun h => ?_, fun h => ?_⟩
  · rw [encW, encOrder_eq_map]
    exact feistel_eq_of_rounds k _ 16 17 (fun i => (h i i.isLt).1) fun i => (h i i.isLt).2
  · rw [decW, decOrder_eq_map]
    exact feistel_eq_of_rounds k _ 1 0 (fun i => (h i i.isLt).1) fun i => (h i i.isLt).2

/-! ## The block functions undo each other -/

/-- R127: a round with the whitening index `wl` undoes the last round `i` before the final whitening: what is left is the network
without that round, whitened with `i` and `wr`. -/
theorem feistelRound_feistel_concat (k : CipherState) (is : List (Fin 18)) (i wr wl : Fin 18) (b : Word × Word) :
    feistelRound k (feistel k (is ++ [i]) wr wl b) wl = feistel k is i wr b := by
  simp only [feistel, List.foldl_append, List.foldl_cons, List.foldl_nil, feistelRound]
  refine Prod.ext ?_ ?_
  · -- Both masks by F are of the same word, so they cancel around the whitening.
    simp [BitVec.xor_assoc]
  · simp [BitVec.xor_assoc]

/-- R127: the network whose whitening indices, the two final ones included, are those of another network in reverse order undoes
it. -/
theorem feistel_feistel_reverse (k : CipherState) (b : Word × Word) {is js : List (Fin 18)} {wr wl wr' wl' : Fin 18}
    (h : js ++ [wr', wl'] = wl :: wr :: is.reverse) : feistel k js wr' wl' (feistel k is wr wl b) = b := by
  induction is using List.reverseRecOn generalizing js wr wl with
  | nil =>
    obtain ⟨rfl, hw⟩ : js = [] ∧ [wr', wl'] = [wl, wr] := List.append_inj' (s₂ := []) h rfl
    cases hw
    simp [feistel_nil]
  | append_singleton is i ih =>
    rw [List.reverse_append, List.reverse_singleton, List.singleton_append] at h
    cases js with
    | nil => cases h
    | cons j js =>
      obtain ⟨rfl, htail⟩ := List.cons.inj h
      rw [feistel_cons, feistelRound_feistel_concat, ih htail]

/-- R127: DecW undoes EncW. -/
theorem decW_encW (k : CipherState) : Function.LeftInverse (decW k) (encW k) := fun b =>
  feistel_feistel_reverse k b (is := encOrder) (js := decOrder) rfl

/-- R127: EncW undoes DecW. -/
theorem encW_decW (k : CipherState) : Function.LeftInverse (encW k) (decW k) := fun b =>
  feistel_feistel_reverse k b (is := decOrder) (js := encOrder) rfl

/-- R127: the block command of `g` restores the block that the block command of `f` transformed, if `g` undoes `f`. -/
theorem transformBlock_restores {f g : CipherState → Word × Word → Word × Word}
    (hinv : ∀ k, Function.LeftInverse (g k) (f k)) {s t u : State} (hs : s.keyValid = true)
    (ht : transformBlock f s = .next t) (hu : u.keyValid = true) (hc : u.cipher = t.cipher) (hl : u.blkL = t.blkL)
    (hr : u.blkR = t.blkR) : ∃ v, transformBlock g u = .next v ∧ v.blkL = s.blkL ∧ v.blkR = s.blkR := by
  rw [transformBlock_keyed hs] at ht
  cases ht
  have hblock : g u.cipher (u.blkL, u.blkR) = (s.blkL, s.blkR) := by
    rw [hc, hl, hr]
    exact hinv s.cipher (s.blkL, s.blkR)
  exact ⟨_, transformBlock_keyed hu g, congrArg Prod.fst hblock, congrArg Prod.snd hblock⟩

/-- Settles O46: DecW is EncW with the whitening indices in reverse order, and the commands are the functions on the block
registers. -/
theorem blockRoundTrip : Obligations.BlockRoundTrip := by
  refine ⟨fun k b => ⟨decW_encW k b, encW_decW k b⟩, fun i j s t u hij hs ht hu hc hl hr => ?_⟩
  obtain ⟨rfl, rfl⟩ | ⟨rfl, rfl⟩ := hij
  · exact transformBlock_restores decW_encW hs ht hu hc hl hr
  · exact transformBlock_restores encW_decW hs ht hu hc hl hr

/-- Settles O47: each block function is a two-sided inverse of the other. -/
theorem blockFunctionsAreBijections : Obligations.BlockFunctionsAreBijections := fun k =>
  ⟨⟨(decW_encW k).injective, (encW_decW k).surjective⟩, ⟨(encW_decW k).injective, (decW_encW k).surjective⟩⟩

end Sys2Proof.Machine

/-! # Padding and the stream functions (43_padding.md R140 to R160) -/

namespace Sys2Proof.Machine

/-! ## The padding functions on sequences -/

/-- R140: pad appends `8 - len(d) mod 8` bytes of that value. -/
theorem padBytes_eq_append (d : List Byte) :
    padBytes d = d ++ List.replicate (8 - d.length % 8) (BitVec.ofNat 8 (8 - d.length % 8)) := rfl

/-- R141: a padded sequence is a whole number of blocks, one more than the data fills. -/
theorem length_padBytes (d : List Byte) : (padBytes d).length = 8 * (d.length / 8 + 1) := by
  rw [padBytes_eq_append, List.length_append, List.length_replicate]
  omega

/-- R140: every pad count is a byte. -/
theorem toNat_ofNat_padCount {n : Nat} (h : n ≤ 8) : (BitVec.ofNat 8 n).toNat = n := by
  rw [BitVec.toNat_ofNat, Nat.mod_eq_of_lt (by omega)]

/-- Settles O54: the appended bytes are those after the data, and their number is what the length lacks to the next block. -/
theorem padProperties : Obligations.PadProperties := by
  rintro d n rfl
  have hn : 8 - d.length % 8 ≤ 8 := Nat.sub_le 8 _
  refine ⟨padBytes_eq_append d, by omega, hn, by omega, ?_, length_padBytes d, ?_, ?_, rfl, ?_⟩
  · rw [padBytes_eq_append, List.length_append, List.length_replicate]
  · intro x hx
    rw [padBytes_eq_append, List.length_append, List.length_replicate, Nat.add_sub_cancel, List.drop_left] at hx
    rw [List.eq_of_mem_replicate hx, toNat_ofNat_padCount hn]
  · rw [padBytes_eq_append, List.take_left]
  · intro h
    rw [length_padBytes, h]

/-- R143: unpad removes `n` bytes of value `n`, whatever stands before them. -/
theorem unpadBytes_append_replicate (d : List Byte) {n : Nat} (hpos : 1 ≤ n) (hle : n ≤ 8) :
    unpadBytes (d ++ List.replicate n (BitVec.ofNat 8 n)) = some d := by
  have hlast : (d ++ List.replicate n (BitVec.ofNat 8 n)).getLast? = some (BitVec.ofNat 8 n) := by
    simp [List.getLast?_append, List.getLast?_replicate, Nat.ne_of_gt hpos]
  simp [unpadBytes, hlast, toNat_ofNat_padCount hle, Nat.ne_of_gt hpos, hle]

/-- R143: unpad succeeds exactly on a sequence that ends in `n` bytes of value `n`, and gives what stands before them. -/
theorem unpadBytes_eq_some_iff (p d : List Byte) :
    unpadBytes p = some d ↔ ∃ n, 1 ≤ n ∧ n ≤ 8 ∧ p = d ++ List.replicate n (BitVec.ofNat 8 n) := by
  constructor
  · intro h
    obtain ⟨last, -, hpos, hle, hlen, hall, rfl⟩ := unpadBytes_eq_some h
    refine ⟨last.toNat, hpos, hle, ?_⟩
    have htail : p.drop (p.length - last.toNat) = List.replicate last.toNat last :=
      List.eq_replicate_iff.mpr ⟨by rw [List.length_drop]; omega, hall⟩
    rw [BitVec.ofNat_toNat, BitVec.setWidth_eq, ← htail, List.take_append_drop]
  · rintro ⟨n, hpos, hle, rfl⟩
    exact unpadBytes_append_replicate d hpos hle

/-- R143: unpad undoes pad. -/
theorem unpadBytes_padBytes (d : List Byte) : unpadBytes (padBytes d) = some d :=
  unpadBytes_append_replicate d (Nat.sub_pos_of_lt (Nat.mod_lt _ (by decide))) (Nat.sub_le 8 _)

/-- Settles O55: unpad removes the run that its last byte counts, and pad appends such a run. -/
theorem unpadInvertsPad : Obligations.UnpadInvertsPad := ⟨unpadBytes_eq_some_iff, unpadBytes_padBytes⟩

/-! ## The command PAD r -/

theorem encode_pad_of_lt : ∀ r < 8, encode (.pad r) = BitVec.ofNat 32 (0x04 + 0x10 * r) := by decide

/-- R72: PAD with ARG[3] = 1 is illegal. -/
theorem decode_pad_of_ge : ∀ a < 16, 8 ≤ a → decode (BitVec.ofNat 32 (0x04 + 0x10 * a)) = .illegal .padCount := by
  decide

/-- R150: the bytes of the block after PAD r. -/
theorem getElem?_padBlock {r i : Nat} {b : List Byte} (hb : b.length = 8) (hi : i < 8) :
    (padBlock r b)[i]? = if i < r then b[i]? else some (BitVec.ofNat 8 (8 - r)) := by
  rw [padBlock]
  by_cases h : i < r
  · rw [if_pos h, List.getElem?_append_left (by rw [List.length_take]; omega), List.getElem?_take_of_lt h]
  · have hlen : (b.take r).length = r := by rw [List.length_take]; omega
    rw [if_neg h, List.getElem?_append_right (by omega), hlen, List.getElem?_replicate_of_lt (by omega)]

/-- R150: PAD r completes with no error, over the padded block and nothing else. -/
theorem exec_pad {r : Nat} (h : r ≤ 8) (s : State) :
    ∃ t, exec (.pad r) s = .next t ∧ blockBytes t.blkL t.blkR = padBlock r (blockBytes s.blkL s.blkR) ∧
      t = { s with blkL := t.blkL, blkR := t.blkR, err := 0, done := true, pend := none } :=
  ⟨_, rfl, blockBytes_wordAt (length_padBlock h (length_stateBlock s)), rfl⟩

/-- Settles O10: the block after PAD r is `padBlock`, byte by byte; the words and their neighbours are finitely many. -/
theorem padFillsTheFinalBlock : Obligations.PadFillsTheFinalBlock := by
  refine ⟨fun r s hr => ⟨encode_pad_of_lt r hr, ?_⟩, fun a hle hlt => ⟨_, decode_pad_of_ge a hlt hle⟩⟩
  obtain ⟨t, hexec, hblock, hframe⟩ := exec_pad hr.le s
  refine ⟨t, hexec, fun i hi => ?_, hframe⟩
  rw [hblock, getElem?_padBlock (length_blockBytes _ _) hi]

/-- R151: if the block begins with the data after the last whole block, padding the block gives the last block of pad(d). -/
theorem padBlock_eq_drop_padBytes {d b : List Byte} (h : b.take (d.length % 8) = d.drop (8 * (d.length / 8))) :
    padBlock (d.length % 8) b = (padBytes d).drop (8 * (d.length / 8)) := by
  rw [padBlock, h, padBytes_eq_append, List.drop_append_of_le_length (Nat.mul_div_le _ _)]

/-- Settles O56: PAD r pads the block, and the whole blocks before it are not the padding's. -/
theorem padCommandRealisesPad : Obligations.PadCommandRealisesPad := by
  intro d s h
  obtain ⟨t, hexec, hblock, -⟩ := exec_pad (Nat.mod_lt d.length (by decide)).le s
  refine ⟨t, hexec, hblock.trans (padBlock_eq_drop_padBytes h), ?_⟩
  rw [padBytes_eq_append, List.take_append_of_le_length (Nat.mul_div_le _ _)]

/-! ## The command UNPAD -/

/-- The bytes from index `k` on all equal `x`, said of the bytes and said of the indices. -/
theorem forall_mem_drop_iff_getElem? (b : List Byte) (k : Nat) (x : Byte) :
    (∀ y ∈ b.drop k, y = x) ↔ ∀ i, k ≤ i → i < b.length → b[i]? = some x := by
  simp only [List.forall_mem_iff_getElem, List.length_drop, List.getElem_drop]
  constructor
  · intro h i hk hi
    have hx := h (i - k) (by omega)
    simp only [Nat.add_sub_of_le hk] at hx
    rw [List.getElem?_eq_getElem hi, hx]
  · intro h i hi
    have hx := h (k + i) (Nat.le_add_right k i) (by omega)
    rwa [List.getElem?_eq_getElem (by omega), Option.some.injEq] at hx

/-- R153: UNPAD counts `n` padding bytes exactly if the last byte is `n`, from 1 to 8, and the last `n` bytes are equal. -/
theorem blockPadCount_eq_some_iff {b : List Byte} (hb : b.length = 8) (n : Nat) :
    blockPadCount b = some n ↔
      n = (b.getD 7 0).toNat ∧ 1 ≤ n ∧ n ≤ 8 ∧ ∀ i, 8 - n ≤ i → i < 8 → b[i]? = some (b.getD 7 0) := by
  have hall := forall_mem_drop_iff_getElem? b (8 - n) (b.getD 7 0)
  rw [hb] at hall
  rw [← hall]
  refine ⟨blockPadCount_eq_some, ?_⟩
  rintro ⟨hn, hpos, hle, hmem⟩
  have hrange : ¬ (n = 0 ∨ 8 < n) := by omega
  have htail : (b.drop (8 - n)).all (· == b.getD 7 0) = true := List.all_eq_true.mpr fun x hx => beq_iff_eq.mpr (hmem x hx)
  simp only [blockPadCount, ← hn]
  rw [if_neg hrange, if_pos htail]

/-- R153: UNPAD of a block with `n` padding bytes. -/
theorem exec_unpad_of_some {s : State} {n : Nat} (h : blockPadCount (blockBytes s.blkL s.blkR) = some n) :
    exec .unpad s = .next { s with
      npad := BitVec.ofNat 4 n
      ndata := BitVec.ofNat 4 (8 - n)
      err := 0
      done := true
      pend := none } := by
  simp only [exec, execUnpad, stateBlock, h]
  rfl

/-- R153: UNPAD of a malformed block. -/
theorem exec_unpad_of_none {s : State} (h : blockPadCount (blockBytes s.blkL s.blkR) = none) :
    exec .unpad s = .next { s with err := 4, done := true, pend := none } := by
  simp only [exec, execUnpad, stateBlock, h]
  rfl

/-- R26: RESULT holds the two counts of a block in its two fields. -/
theorem toNat_resultWord_of_counts {s : State} {n : Nat} (hle : n ≤ 8) (hp : s.npad = BitVec.ofNat 4 n)
    (hd : s.ndata = BitVec.ofNat 4 (8 - n)) : (resultWord s).toNat = 16 * n + (8 - n) := by
  have hfields : ∀ n ≤ 8, ((BitVec.ofNat 4 n).setWidth 32 <<< 4 ||| (BitVec.ofNat 4 (8 - n)).setWidth 32).toNat =
      16 * n + (8 - n) := by decide
  rw [resultWord, hp, hd, hfields n hle]

/-- Settles O11: UNPAD succeeds exactly if `blockPadCount` counts, and what it counts is the last byte. -/
theorem unpadChecksTheFinalBlock : Obligations.UnpadChecksTheFinalBlock := by
  refine ⟨rfl, fun s n hn => ?_⟩
  have hcount := blockPadCount_eq_some_iff (length_blockBytes s.blkL s.blkR)
  have hlast : (blockBytes s.blkL s.blkR).getD 7 0 = byteOf s.blkR 3 := rfl
  rw [hlast] at hcount
  refine ⟨fun ⟨hpos, hle, hall⟩ => ?_, fun hbad => exec_unpad_of_none ?_⟩
  · exact ⟨_, exec_unpad_of_some ((hcount n).mpr ⟨hn, hpos, hle, hall⟩), toNat_resultWord_of_counts hle rfl rfl, rfl⟩
  · rw [Option.eq_none_iff_forall_ne_some]
    intro m hm
    obtain ⟨hm, hpos, hle, hall⟩ := (hcount m).mp hm
    obtain rfl : m = n := hm.trans hn.symm
    obtain h | h | ⟨i, hi, hi8, hne⟩ := hbad
    · omega
    · omega
    · exact hne (hall i hi hi8)

/-- R154: unpad of a sequence decides by its last block alone, and keeps what stands before it. -/
theorem unpadBytes_append {q b : List Byte} (hb : b.length = 8) :
    unpadBytes (q ++ b) = (blockPadCount b).map fun n => q ++ b.take (8 - n) := by
  have hlast : (q ++ b).getLast? = some (b.getD 7 0) := by
    rw [List.getLast?_append_of_ne_nil _ (List.ne_nil_of_length_eq_add_one hb), List.getLast?_eq_getElem?, hb]
    simp [hb]
  have hlen : (q ++ b).length = q.length + 8 := by rw [List.length_append, hb]
  simp only [unpadBytes, blockPadCount, hlast, hlen]
  by_cases hrange : (b.getD 7 0).toNat = 0 ∨ 8 < (b.getD 7 0).toNat
  · rw [if_pos hrange, if_pos (by omega)]
    rfl
  · have hcut : q.length + 8 - (b.getD 7 0).toNat = q.length + (8 - (b.getD 7 0).toNat) := by omega
    rw [if_neg hrange, if_neg (by omega), hcut, List.drop_length_add_append, List.take_length_add_append]
    split_ifs <;> rfl

/-- Settles O57: unpad of the sequence is the pad count of its last block, which is what UNPAD reports. -/
theorem unpadCommandRealisesUnpad : Obligations.UnpadCommandRealisesUnpad := by
  intro p m s hm hlen hblock
  have hunpad : unpadBytes p = (blockPadCount (blockBytes s.blkL s.blkR)).map fun n =>
      p.take (8 * m - 8) ++ (blockBytes s.blkL s.blkR).take (8 - n) := by
    rw [← unpadBytes_append (length_blockBytes _ _), hblock, List.take_append_drop]
  cases hcount : blockPadCount (blockBytes s.blkL s.blkR) with
  | none =>
    rw [hcount] at hunpad
    exact ⟨_, exec_unpad_of_none hcount, by simp [hunpad], by simp [hunpad]⟩
  | some n =>
    rw [hcount] at hunpad
    obtain ⟨-, hpos, hle, -⟩ := blockPadCount_eq_some hcount
    have hndata : (BitVec.ofNat 4 (8 - n)).toNat = 8 - n := by rw [BitVec.toNat_ofNat, Nat.mod_eq_of_lt (by omega)]
    refine ⟨_, exec_unpad_of_some hcount, by simp [hunpad], fun d hd => ?_⟩
    cases hunpad.symm.trans hd
    refine ⟨by rw [hndata], ?_⟩
    rw [List.length_append, List.length_take, List.length_take, length_blockBytes, hndata, hlen]
    omega

/-! ## The blocks of a sequence -/

theorem length_fullBlocks (d : List Byte) : (fullBlocks d).length = d.length / 8 := by
  rw [fullBlocks, List.length_map, List.length_range]

/-- R158: the blocks of a sequence are of 8 bytes. -/
theorem length_of_mem_fullBlocks {d b : List Byte} (h : b ∈ fullBlocks d) : b.length = 8 := by
  obtain ⟨j, hj, rfl⟩ := List.mem_map.mp h
  have hlt : j < d.length / 8 := List.mem_range.mp hj
  rw [List.length_take, List.length_drop]
  omega

/-- The blocks of a sequence that begins with 8 bytes. -/
theorem fullBlocks_append {b : List Byte} (hb : b.length = 8) (d : List Byte) :
    fullBlocks (b ++ d) = b :: fullBlocks d := by
  have hcount : (b ++ d).length / 8 = d.length / 8 + 1 := by
    rw [List.length_append, hb, Nat.add_div_left _ (by decide)]
  have hdrop (j : Nat) : (b ++ d).drop (8 * (j + 1)) = d.drop (8 * j) := by
    rw [Nat.mul_succ, Nat.add_comm, ← hb, List.drop_length_add_append]
  rw [fullBlocks, hcount, List.range_succ_eq_map, List.map_cons, List.map_map, Nat.mul_zero, List.drop_zero,
    List.take_left' hb]
  exact congrArg (b :: ·) (List.map_congr_left fun j _ => congrArg (List.take 8) (hdrop j))

/-- The blocks of the images of blocks, put together, are the images. -/
theorem fullBlocks_flatMap {f : List Byte → List Byte} (hf : ∀ b, (f b).length = 8) (bs : List (List Byte)) :
    fullBlocks (bs.flatMap f) = bs.map f := by
  induction bs with
  | nil => simp [fullBlocks]
  | cons b bs ih => rw [List.flatMap_cons, fullBlocks_append (hf b), ih, List.map_cons]

/-- The first `m` blocks, put together, are the first `8 m` bytes. -/
theorem flatten_map_range_take_drop (d : List Byte) (m : Nat) :
    ((List.range m).map fun j => (d.drop (8 * j)).take 8).flatten = d.take (8 * m) := by
  induction m with
  | zero => rfl
  | succ m ih =>
    rw [List.range_succ, List.map_append, List.flatten_append, ih, Nat.mul_succ, List.take_add]
    simp

/-- The blocks of a sequence that is a whole number of blocks make it up. -/
theorem flatten_fullBlocks {d : List Byte} (h : d.length % 8 = 0) : (fullBlocks d).flatten = d := by
  rw [fullBlocks, flatten_map_range_take_drop, List.take_of_length_le (by omega)]

/-! ## Encrypting and decrypting a sequence -/

theorem length_encBlock (k : CipherState) (b : List Byte) : (encBlock k b).length = 8 := length_blockBytes _ _

/-- R127: decrypting an encrypted block gives the block back. -/
theorem decBlock_encBlock (k : CipherState) {b : List Byte} (hb : b.length = 8) : decBlock k (encBlock k b) = b := by
  rw [decBlock, encBlock, wordAt_blockBytes_zero, wordAt_blockBytes_four, decW_encW]
  exact blockBytes_wordAt hb

/-- R160: the length of the encryption is that of the padded data. -/
theorem length_encryptData (k : CipherState) (d : List Byte) : (encryptData k d).length = 8 * (d.length / 8 + 1) := by
  rw [encryptData, List.length_flatMap, List.map_congr_left fun b _ => length_encBlock k b, List.map_const',
    List.sum_replicate, length_fullBlocks, length_padBytes, Nat.mul_div_cancel_left _ (by decide), smul_eq_mul, Nat.mul_comm]

/-- R160: decrypting the blocks of the encryption gives the padded data. -/
theorem flatMap_decBlock_encryptData (k : CipherState) (d : List Byte) :
    (fullBlocks (encryptData k d)).flatMap (decBlock k) = padBytes d := by
  have hpad : (padBytes d).length % 8 = 0 := by rw [length_padBytes, Nat.mul_mod_right]
  calc (fullBlocks (encryptData k d)).flatMap (decBlock k)
      = (fullBlocks (padBytes d)).flatMap fun b => decBlock k (encBlock k b) := by
        rw [encryptData, fullBlocks_flatMap (length_encBlock k), List.flatMap_map]
    _ = (fullBlocks (padBytes d)).flatMap id :=
        List.flatMap_congr fun b hb => decBlock_encBlock k (length_of_mem_fullBlocks hb)
    _ = padBytes d := by rw [List.flatMap_id, flatten_fullBlocks hpad]

/-- R160: decryption undoes encryption under one CipherState. -/
theorem decryptData_encryptData (k : CipherState) (d : List Byte) :
    decryptData k (encryptData k d) = .ok (d, d.length) := by
  have hlegal : ¬ ((encryptData k d).length = 0 ∨ (encryptData k d).length % 8 ≠ 0) := by
    rw [length_encryptData]
    omega
  rw [decryptData, if_neg hlegal, flatMap_decBlock_encryptData, unpadBytes_padBytes]

/-- Settles O58: the round trip and the length hold under every CipherState, so under that of every key. -/
theorem streamRoundTrip : Obligations.StreamRoundTrip := by
  refine fun k d _ _ => ⟨decryptData_encryptData (ks k) d, ?_⟩
  rw [length_encryptData]
  split_ifs <;> omega

end Sys2Proof.Machine

/-! # The control commands and illegal words (44_control.md R170 to R172) -/

namespace Sys2Proof

/-! ## Words with OP = 0x0 -/

theorem Instr.op_eq_zero_iff (i : Instr) : i.op = 0 ↔ i = .nop := by
  cases i <;> simp [Instr.op]

/-- R170: of the words with OP = 0x0, only the word of NOP is a command. -/
theorem eq_encode_nop_of_decode_command {c : Word} {i : Instr} (h : decode c = .command i) (hop : opField c = 0) :
    c = encode .nop := by
  obtain ⟨-, hi, -, -⟩ := fields_of_decode h
  obtain rfl : i = .nop := i.op_eq_zero_iff.mp (hi.symm.trans hop)
  exact decode_command_injective h (decode_encode rfl)

end Sys2Proof

namespace Sys2Proof.Machine

/-- Settles O4: NOP is the bare completion with code 0, and a word with OP = 0x0 that decodes as a command is NOP's. -/
theorem nopCompletesWithNoEffect : Obligations.NopCompletesWithNoEffect := by
  refine ⟨rfl, fun _ => rfl, fun c hop hc => ?_⟩
  rw [decode_illegal_iff]
  rintro ⟨i, hi⟩
  exact hc (eq_encode_nop_of_decode_command hi hop)

/-! ## Illegal words -/

/-- R172: the completion of a word that decodes as illegal, for any of the reasons. -/
theorem completeWord_of_decode_illegal {c : Word} {why : IllegalWord} (h : decode c = .illegal why) (s : State) :
    completeWord c s = .next { s with err := 6, done := true, pend := none } := by
  rw [completeWord, h]
  rfl

/-- R172: the four words of the corner cases, each with its reason. -/
theorem decode_cornerCases :
    decode 0x00000010 = .illegal .argNotZero ∧ decode 0x00000084 = .illegal .padCount ∧
      decode 0x00000102 = .illegal .reservedBits ∧ decode 0x0000000F = .illegal .reservedOp := by decide

/-- Settles O16: a word outside the opcode map decodes as illegal (R75), which completes with code 6. -/
theorem illegalWordCompletesWithIllegalCmd : Obligations.IllegalWordCompletesWithIllegalCmd := by
  constructor
  · intro s c hpend hc
    obtain ⟨why, hdecode⟩ := (fourteenWordsAreLegal.2 c).mpr hc
    rw [engineTurn_some hpend, completeWord_of_decode_illegal hdecode]
  · obtain ⟨hnop, hpad, hencb, hop⟩ := decode_cornerCases
    simp only [List.forall_mem_cons]
    exact ⟨⟨_, hnop⟩, ⟨_, hpad⟩, ⟨_, hencb⟩, ⟨_, hop⟩, List.forall_mem_nil _⟩

end Sys2Proof.Machine

/-! # Error codes, accesses while busy, and the interrupt line (60_exceptions.md R182 to R191) -/

namespace Sys2Proof.Machine

/-! ## The error codes of the commands -/

/-- R182: the code a command reports when it fails, `.none` for a command that never does. -/
def failureCode (i : Instr) : ErrCode :=
  match i with
  | .keysched => .invalidKey
  | .encb | .decb => .noKey
  | .unpad => .invalidPadding
  | .nop | .pad _ | .zeroize => .none

/-- R126, R130: a block command reports NO_KEY or no error. -/
theorem err_of_transformBlock {f : CipherState → Word × Word → Word × Word} {s t : State}
    (h : transformBlock f s = .next t) : t.err = 0 ∨ t.err = errNumber .noKey := by
  cases hk : s.keyValid with
  | true =>
    cases (transformBlock_keyed hk f).symm.trans h
    exact .inl rfl
  | false =>
    cases (transformBlock_unkeyed hk f).symm.trans h
    exact .inr rfl

/-- R182: a command completes with code 0 or with the code of its one failure. -/
theorem err_of_exec {i : Instr} {s t : State} (h : exec i s = .next t) :
    t.err = 0 ∨ t.err = errNumber (failureCode i) := by
  cases i with
  | keysched =>
    rw [exec, execKeysched] at h
    split at h <;> cases h
    · exact .inl rfl
    · exact .inr rfl
  | encb | decb => exact err_of_transformBlock h
  | unpad =>
    cases hn : blockPadCount (blockBytes s.blkL s.blkR) with
    | some n =>
      cases (exec_unpad_of_some hn).symm.trans h
      exact .inl rfl
    | none =>
      cases (exec_unpad_of_none hn).symm.trans h
      exact .inr rfl
  | nop | pad _ | zeroize =>
    cases h
    exact .inl rfl

/-- R182: a command without a failure completes with code 0. -/
theorem err_of_exec_of_failureCode_none {i : Instr} {s t : State} (hi : failureCode i = .none) (h : exec i s = .next t) :
    t.err = 0 := by
  have herr := err_of_exec h
  rwa [hi, show errNumber .none = 0 from rfl, or_self] at herr

/-! ## Writes while a command is pending -/

/-- R185: a write to a guarded register while a command is pending sets OVR and is otherwise lost. -/
theorem writeReg_of_guardedReg_of_busy {r : Reg} {s : State} (hg : guardedReg r) (hb : s.busy = true) (v : Word) :
    writeReg r v s = overrun s := by
  obtain rfl | rfl | rfl | rfl | ⟨i, rfl⟩ := hg <;> exact unlessBusy_busy hb _

/-- R185: the same write as a step. -/
theorem step_write_guardedReg_busy {r : Reg} {s : State} {v : Word} {es : List Event} (hg : guardedReg r)
    (hb : s.busy = true) (hr : s.rst = false) (ha : s.agenda = .write (regOffset r) 4 v :: es) :
    step s = .next { s with agenda := es, ovr := true } := by
  have hb' : ({ s with agenda := es } : State).busy = true := hb
  rw [step_write_regOffset r hr ha, writeReg_of_guardedReg_of_busy hg hb']
  rfl

/-- R20: the offsets of CMD, KEYLEN, BLK_L, BLK_R and KEY0 to KEY13 are those of guarded registers. -/
theorem exists_guardedReg_of_offset {off : Nat}
    (h : off = 0x04 ∨ off = 0x10 ∨ off = 0x18 ∨ off = 0x1C ∨ ∃ i, i < 14 ∧ off = 0x20 + 4 * i) :
    ∃ r, guardedReg r ∧ regOffset r = off := by
  obtain rfl | rfl | rfl | rfl | ⟨i, hi, rfl⟩ := h
  · exact ⟨.cmd, .inl rfl, rfl⟩
  · exact ⟨.keylen, .inr (.inl rfl), rfl⟩
  · exact ⟨.blkL, .inr (.inr (.inl rfl)), rfl⟩
  · exact ⟨.blkR, .inr (.inr (.inr (.inl rfl))), rfl⟩
  · exact ⟨.key ⟨i, hi⟩, .inr (.inr (.inr (.inr ⟨_, rfl⟩))), rfl⟩

/-- R21, R26, R58: the offsets of ID, RESULT and the reserved words are those of registers no write changes. -/
theorem exists_unwritableReg_of_offset {off : Nat} (h : off = 0x00 ∨ off = 0x14 ∨ ∃ i, i < 10 ∧ off = 0x58 + 4 * i) :
    ∃ r, (∀ v s, writeReg r v s = s) ∧ regOffset r = off := by
  obtain rfl | rfl | ⟨i, hi, rfl⟩ := h
  · exact ⟨.id, fun _ _ => rfl, rfl⟩
  · exact ⟨.result, fun _ _ => rfl, rfl⟩
  · exact ⟨.reserved ⟨i, hi⟩, fun _ _ => rfl, rfl⟩

/-- Settles O13: each command has the code 0 and that of its one failure, each failure occurs in the reset state, and the registers
of the last clause are the guarded ones. -/
theorem errorsOfEachCommand : Obligations.ErrorsOfEachCommand := by
  refine ⟨fun s t => ⟨err_of_exec_of_failureCode_none rfl, err_of_exec, err_of_exec, err_of_exec,
    fun _ => err_of_exec_of_failureCode_none rfl, err_of_exec, err_of_exec_of_failureCode_none rfl, ?_⟩, ?_, ?_, ?_, ?_, ?_, ?_⟩
  · intro c why hc h
    cases (completeWord_of_decode_illegal hc s).symm.trans h
    rfl
  · exact ⟨State.reset, _, rfl, rfl⟩
  · exact ⟨State.reset, complete .noKey State.reset, transformBlock_unkeyed (s := State.reset) rfl encW, rfl⟩
  · exact ⟨State.reset, complete .noKey State.reset, transformBlock_unkeyed (s := State.reset) rfl decW, rfl⟩
  · exact ⟨State.reset, _, exec_unpad_of_none (by decide), rfl⟩
  · obtain ⟨hnop, -⟩ := decode_cornerCases
    exact ⟨_, _, State.reset, _, hnop, completeWord_of_decode_illegal hnop _, rfl⟩
  · intro s r v es hp hr hg ha
    exact step_write_guardedReg_busy hg (Option.isSome_iff_ne_none.mpr hp) hr ha

/-- Settles O21: each offset is that of a register, and the write is the one of that register. -/
theorem writesWhileBusy : Obligations.WritesWhileBusy := by
  intro s c off v es hp hr ha
  refine ⟨fun hoff => ?_, ?_, ?_, fun hoff => ?_⟩
  · obtain ⟨r, hg, rfl⟩ := exists_guardedReg_of_offset hoff
    exact step_write_guardedReg_busy hg (busy_of_pend_some hp) hr ha
  · rintro rfl
    exact step_write_regOffset .status hr ha
  · rintro rfl
    exact step_write_regOffset .inten hr ha
  · obtain ⟨r, hself, rfl⟩ := exists_unwritableReg_of_offset hoff
    rw [step_write_regOffset r hr ha, hself]

/-! ## STATUS as it reads -/

theorem getLsbD_bitAt (b : Bool) (i j : Nat) : (bitAt b i).getLsbD j = (decide (j < 32) && decide (j = i) && b) := by
  simp only [bitAt, BitVec.getLsbD_shiftLeft, BitVec.getLsbD_setWidth, BitVec.getLsbD_ofBool]
  by_cases h : j = i
  · simp [h]
  · rcases Nat.lt_or_gt_of_ne h with hlt | hgt
    · simp [h, hlt]
    · simp [h, show j - i ≠ 0 by omega]

/-- R23: the bits of STATUS below ERR are its four flags. -/
theorem getLsbD_statusWord_of_lt (s : State) {i : Nat} (hi : i < 8) : (statusWord s).getLsbD i =
    (decide (i = 0) && s.busy || decide (i = 1) && s.keyValid || decide (i = 2) && s.done || decide (i = 3) && s.ovr) := by
  simp only [statusWord, BitVec.getLsbD_or, getLsbD_bitAt, BitVec.getLsbD_shiftLeft, show i < 32 by omega, hi, decide_true,
    Bool.true_and, Bool.not_true, Bool.and_false, Bool.false_and, Bool.or_false]

/-- R23, R36: the four flags of STATUS. -/
theorem statusWord_flags (s : State) :
    (statusWord s).getLsbD 0 = s.busy ∧ (statusWord s).getLsbD 1 = s.keyValid ∧ (statusWord s).getLsbD 2 = s.done ∧
      (statusWord s).getLsbD 3 = s.ovr := by
  have hbit := fun i (hi : i < 8) => getLsbD_statusWord_of_lt s hi
  exact ⟨by simpa using hbit 0, by simpa using hbit 1, by simpa using hbit 2, by simpa using hbit 3⟩

/-- R23: ERR is bits 11:8 of STATUS. -/
theorem extractLsb'_statusWord_err (s : State) : (statusWord s).extractLsb' 8 4 = s.err := by
  apply BitVec.eq_of_getLsbD_eq
  intro i hi
  have hflag : ∀ (b : Bool) (j : Nat), j < 8 → (bitAt b j).getLsbD (8 + i) = false := fun b j hj => by
    rw [getLsbD_bitAt, decide_eq_false (show ¬ 8 + i = j by omega), Bool.and_false, Bool.false_and]
  have herr : (s.err.setWidth 32 <<< 8).getLsbD (8 + i) = s.err.getLsbD i := by
    simp [show 8 + i < 32 by omega]
  rw [BitVec.getLsbD_extractLsb', decide_eq_true hi, Bool.true_and]
  simp only [statusWord, BitVec.getLsbD_or, hflag _ 0 (by decide), hflag _ 1 (by decide), hflag _ 2 (by decide),
    hflag _ 3 (by decide), herr, Bool.false_or]

/-! ## Reads while a command is pending -/

/-- R187: a read of BLK_L, BLK_R or RESULT while a command is pending gives back a draw. -/
theorem step_read_drawn_busy {r : Reg} (hd : drawnWhileBusy r = true) {s : State} {es : List Event} (hb : s.busy = true)
    (hr : s.rst = false) (ha : s.agenda = .read (regOffset r) 4 :: es) :
    step s = .next (respondAny { s with agenda := es }) := by
  have hb' : ({ s with agenda := es } : State).busy = true := hb
  rw [step_read hr (regOffset_lt r) (regAt_regOffset r) ha, readReg_drawn hb' hd]

/-- R26, R27: the three offsets whose reads are draws. -/
theorem exists_drawnReg_of_offset {off : Nat} (h : off = 0x14 ∨ off = 0x18 ∨ off = 0x1C) :
    ∃ r, drawnWhileBusy r = true ∧ regOffset r = off := by
  obtain rfl | rfl | rfl := h
  · exact ⟨.result, rfl, rfl⟩
  · exact ⟨.blkL, rfl, rfl⟩
  · exact ⟨.blkR, rfl, rfl⟩

/-- R22, R28, R58: the offsets of CMD, KEY0 to KEY13 and the reserved words are those of registers that read 0, busy or not. -/
theorem exists_zeroReg_of_offset {off : Nat}
    (h : off = 0x04 ∨ (∃ i, i < 14 ∧ off = 0x20 + 4 * i) ∨ ∃ i, i < 10 ∧ off = 0x58 + 4 * i) :
    ∃ r, drawnWhileBusy r = false ∧ (∀ s, regValue r s = 0) ∧ regOffset r = off := by
  obtain rfl | ⟨i, hi, rfl⟩ | ⟨i, hi, rfl⟩ := h
  · exact ⟨.cmd, rfl, fun _ => rfl, rfl⟩
  · exact ⟨.key ⟨i, hi⟩, rfl, fun _ => rfl, rfl⟩
  · exact ⟨.reserved ⟨i, hi⟩, rfl, fun _ => rfl, rfl⟩

/-- Settles O32: each offset is that of a register, and its read is a draw or gives the register's value, for STATUS the word whose
fields the flags and ERR are. -/
theorem readsWhileBusy : Obligations.ReadsWhileBusy := by
  intro s c off es hp hr ha
  refine ⟨fun hoff => ?_, ?_, ?_, ?_, ?_, fun hoff => ?_⟩
  · obtain ⟨r, hd, rfl⟩ := exists_drawnReg_of_offset hoff
    exact step_read_drawn_busy hd (busy_of_pend_some hp) hr ha
  · rintro rfl
    obtain ⟨hbusy, hkey, hdone, hovr⟩ := statusWord_flags s
    exact ⟨statusWord s, step_read_regOffset (r := .status) rfl hr ha, hbusy.trans (busy_of_pend_some hp), hkey, hdone, hovr,
      extractLsb'_statusWord_err s⟩
  · rintro rfl
    exact step_read_regOffset (r := .id) rfl hr ha
  · rintro rfl
    exact step_read_regOffset (r := .inten) rfl hr ha
  · rintro rfl
    exact step_read_regOffset (r := .keylen) rfl hr ha
  · obtain ⟨r, hd, hzero, rfl⟩ := exists_zeroReg_of_offset hoff
    rw [step_read_regOffset hd hr ha, hzero]
    rfl

/-! ## Acceptance -/

/-- Settles O20: with no command pending, the guarded write to CMD is `accept`. -/
theorem cmdWriteIsAccepted : Obligations.CmdWriteIsAccepted := by
  intro s c es hp hr ha
  have hb : ({ s with agenda := es } : State).busy = false := busy_of_pend_none hp
  refine ⟨accept c { s with agenda := es }, ?_, rfl, ?_, ?_⟩
  · rw [step_write_regOffset .cmd hr ha, writeReg, unlessBusy_idle hb]
  · exact (statusWord_flags s).1.trans (busy_of_pend_none hp)
  · exact (statusWord_flags _).1.trans (accept_busy c _)

/-! ## The interrupt line -/

/-- R190, R191: the level of the interrupt line after a write to INTEN. -/
theorem irq_setInten (v : Word) (s : State) :
    irq (setInten v s) = ((s.done && v.getLsbD 0) || (s.ovr && v.getLsbD 1)) := rfl

/-- Settles O36: a write to INTEN stores the two enables and keeps DONE and OVR, of which `irq` is a function. -/
theorem interruptLineFollowsItsEnables : Obligations.InterruptLineFollowsItsEnables := by
  intro s v es hr ha
  have hirq : irq (setInten v { s with agenda := es }) = ((s.done && v.getLsbD 0) || (s.ovr && v.getLsbD 1)) := irq_setInten _ _
  refine ⟨_, step_write_regOffset .inten hr ha, rfl, rfl, hirq, fun hdone hv => ?_, fun hovr hv => ?_, fun hv0 hv1 => ?_⟩
  · exact hirq.trans (by rw [hdone, hv, Bool.true_and, Bool.true_or])
  · exact hirq.trans (by rw [hovr, hv, Bool.true_and, Bool.or_true])
  · exact hirq.trans (by rw [hv0, hv1, Bool.and_false, Bool.and_false, Bool.or_false])

end Sys2Proof.Machine

/-! # Decoding and encoding (30_encoding.md R70 to R77) -/

namespace Sys2Proof

/-- Settles O17: a word decodes as a command exactly if it is the encoding of that command and the command is well formed. -/
theorem decodeAndEncodeAgree : Obligations.DecodeAndEncodeAgree :=
  ⟨fun _ => decode_encode, fun c i => (decode_eq_command_iff c i).mp⟩

/-- Settles O18, by running the decoder on the eight words. -/
theorem sampleWordsDecodeAsTheSpecSays : Obligations.SampleWordsDecodeAsTheSpecSays := by
  unfold Obligations.SampleWordsDecodeAsTheSpecSays
  decide

end Sys2Proof

/-! # The invariant of the machine (R26, R31, R180, R210) -/

namespace Sys2Proof.Machine

/-! ## What keeps the invariant -/

/-- The invariant speaks of ERR, RESULT, the key flag, the tables and the reset level only. -/
theorem Inv.congr {s t : State} (h : Inv s) (herr : t.err = s.err) (hnpad : t.npad = s.npad) (hndata : t.ndata = s.ndata)
    (hkey : t.keyValid = s.keyValid) (hcipher : t.cipher = s.cipher) (hreset : ResetHeld t) : Inv t := by
  obtain ⟨herrLegal, hresult, hsound, -⟩ := h
  refine ⟨?_, ?_, ?_, hreset⟩
  · rwa [ErrLegal, herr]
  · rwa [ResultLegal, hnpad, hndata]
  · rwa [KeyValidSound, hkey, hcipher]

theorem resetHeld_of_released {s : State} (h : s.rst = false) : ResetHeld s := by
  intro hr
  cases h.symm.trans hr

/-- R210: what the host has to do and has received is no piece of the engine's state. -/
theorem ResetHeld.withHost {s : State} (h : ResetHeld s) (es : List Event) (rcv : List Response) (dr : Nat) :
    ResetHeld { s with agenda := es, received := rcv, draws := dr } := fun hr =>
  congrArg (fun u : State => { u with agenda := es, received := rcv, draws := dr }) (h hr)

theorem Inv.withHost {s : State} (h : Inv s) (es : List Event) (rcv : List Response) (dr : Nat) :
    Inv { s with agenda := es, received := rcv, draws := dr } :=
  h.congr rfl rfl rfl rfl rfl (h.resetHeld.withHost es rcv dr)

theorem Inv.withAgenda {s : State} (h : Inv s) (es : List Event) : Inv { s with agenda := es } :=
  h.withHost es s.received s.draws

/-- Settles O41: the flags and RESULT are 0 in the reset state, and `rst` is released there. -/
theorem invariantHoldsAfterReset : Obligations.InvariantHoldsAfterReset :=
  ⟨.inl rfl, .inl ⟨rfl, rfl⟩, (fun h => nomatch h), resetHeld_of_released rfl⟩

theorem inv_assertReset (s : State) : Inv (assertReset s) :=
  ⟨.inl rfl, .inl ⟨rfl, rfl⟩, (fun h => nomatch h), fun _ => rfl⟩

/-- R210: a change of the input `rst` keeps the invariant. -/
theorem Inv.setRst {s : State} (h : Inv s) (asserted : Bool) : Inv (setRst asserted s) := by
  cases asserted with
  | true => exact inv_assertReset s
  | false => exact h.congr rfl rfl rfl rfl rfl (resetHeld_of_released rfl)

/-- R57: no write touches what the invariant speaks of. -/
theorem Inv.writeReg {s : State} (h : Inv s) (hr : s.rst = false) (r : Reg) (v : Word) : Inv (writeReg r v s) := by
  obtain ⟨hkey, herr, hcipher, hnpad, hndata, hrst, -⟩ := writeReg_keeps r v s
  exact h.congr herr hnpad hndata hkey hcipher (resetHeld_of_released (hrst.trans hr))

/-! ## Completions -/

/-- R180, R182: the codes of the commands' failures. -/
theorem errNumber_failureCode (i : Instr) :
    errNumber (failureCode i) = 0 ∨ errNumber (failureCode i) = 1 ∨ errNumber (failureCode i) = 4 ∨
      errNumber (failureCode i) = 5 := by
  cases i with
  | nop | pad | zeroize => exact .inl rfl
  | keysched => exact .inr (.inl rfl)
  | unpad => exact .inr (.inr (.inl rfl))
  | encb | decb => exact .inr (.inr (.inr rfl))

/-- R180, R182: the codes a completion writes. -/
theorem errLegal_of_completeWord {c : Word} {s t : State} (h : completeWord c s = .next t) : ErrLegal t := by
  rcases completeWord_next h with ⟨i, -, hi⟩ | ⟨why, -, rfl⟩
  · rcases err_of_exec hi with herr | herr
    · exact .inl herr
    · rw [ErrLegal, herr]
      have hcode := errNumber_failureCode i
      tauto
  · exact .inr (.inr (.inr (.inr rfl)))

/-- R26: UNPAD writes two counts that make a block, ZEROIZE clears both, and every other completion leaves RESULT. -/
theorem resultLegal_of_completeWord {c : Word} {s t : State} (hs : ResultLegal s) (h : completeWord c s = .next t) :
    ResultLegal t := by
  rcases completeWord_next h with ⟨i, -, hi⟩ | ⟨why, -, rfl⟩
  · rcases exec_next hi with ⟨e, -, rfl⟩ | ⟨-, rfl⟩ | ⟨-, -, rfl⟩ | ⟨-, -, rfl⟩ | ⟨-, -, rfl⟩ | ⟨r, -, rfl⟩ |
      ⟨n, -, hcount, rfl⟩ | ⟨-, rfl⟩
    · exact hs
    · exact hs
    · exact hs
    · exact hs
    · exact hs
    · exact hs
    · obtain ⟨-, hpos, hle, -⟩ := blockPadCount_eq_some hcount
      right
      simp only [complete_npad, complete_ndata, BitVec.toNat_ofNat]
      omega
    · exact .inl ⟨rfl, rfl⟩
  · exact hs

/-- R23, R31: KEYVALID rises together with the key schedule of the key registers, whose length KEYSCHED has checked. -/
theorem keyValidSound_of_completeWord {c : Word} {s t : State} (hs : KeyValidSound s) (h : completeWord c s = .next t) :
    KeyValidSound t := by
  rcases completeWord_key h with ⟨hkey, hcipher⟩ | ⟨-, hlen, -, hcipher⟩ | ⟨-, hkey, -⟩
  · rwa [KeyValidSound, hkey, hcipher]
  · obtain ⟨hmin, hmax⟩ := (legalKeyLen_iff _).mp hlen
    have hk : (stateKey s).length = s.keyLen.toNat := length_keyBytes _ _
    exact fun _ => ⟨stateKey s, by omega, by omega, hcipher⟩
  · intro ht
    cases hkey.symm.trans ht

/-- R210: no command is pending while `rst` is asserted. -/
theorem ResetHeld.released_of_pend {s : State} {c : Word} (h : ResetHeld s) (hp : s.pend = some c) : s.rst = false := by
  cases hr : s.rst with
  | false => rfl
  | true =>
    rw [h hr] at hp
    cases hp

/-- R186: the engine's turn keeps the invariant. -/
theorem Inv.engineTurn {s t : State} (h : Inv s) (ht : engineTurn s = .next t) : Inv t := by
  rcases engineTurn_next ht with ⟨-, rfl⟩ | ⟨c, hp, hc⟩
  · exact h
  · obtain ⟨-, -, -, -, hrst, -⟩ := completeWord_keeps hc
    exact ⟨errLegal_of_completeWord hc, resultLegal_of_completeWord h.resultLegal hc,
      keyValidSound_of_completeWord h.keyValidSound hc,
      resetHeld_of_released (hrst.trans (h.resetHeld.released_of_pend hp))⟩

/-- Settles O40: the engine's turn, a read, a write and a change of `rst` each keep the invariant. -/
theorem everyStepKeepsTheInvariant : Obligations.EveryStepKeepsTheInvariant := by
  intro s t h hstep
  rcases step_effects hstep with ⟨-, es, ht⟩ | ⟨es, -, -, rcv, dr, -, rfl⟩ |
    ⟨es, -, -, v, -, hr, ⟨r, -, -, rfl⟩ | ⟨rcv, rfl⟩⟩ | ⟨es, b, -, rfl⟩
  · exact (h.withAgenda es).engineTurn ht
  · exact h.withHost es rcv dr
  · exact (h.withAgenda es).writeReg hr r v
  · exact h.withHost es rcv s.draws
  · exact (h.withAgenda es).setRst b

end Sys2Proof.Machine

/-! # Two runs side by side (R37, R40) -/

namespace Sys2Proof.Machine

/-! ## Relations of two states that the host's events keep -/

/-- A relation of two states that no bus access and no change of `rst` breaks, between states that treat an access alike. -/
structure KeptByHost (R : State → State → Prop) : Prop where
  rst_eq {s t : State} : R s t → s.rst = t.rst
  agenda_eq {s t : State} : R s t → s.agenda = t.agenda
  withAgenda {s t : State} : R s t → ∀ es, R { s with agenda := es } { t with agenda := es }
  respond {s t : State} : R s t → ∀ x, R (respond x s) (respond x t)
  readReg {s t : State} : R s t → ∀ r, R (readReg r s) (readReg r t)
  writeReg {s t : State} : R s t → ∀ r v, R (writeReg r v s) (writeReg r v t)
  setRst {s t : State} : R s t → ∀ asserted, R (setRst asserted s) (setRst asserted t)

section

variable {R : State → State → Prop} {s t : State}

/-- R187: two reads are related if their values agree and each way of responding keeps the relation. -/
theorem readReg_related {r : Reg} (hb : s.busy = t.busy) (hv : regValue r s = regValue r t)
    (hany : R (respondAny s) (respondAny t)) (hdata : ∀ x, R (respond x s) (respond x t)) :
    R (readReg r s) (readReg r t) := by
  rw [readReg, readReg, hb, hv]
  split
  · exact hany
  · exact hdata _

/-- R185: two guarded writes are related if both the lost write and the performed one keep the relation. -/
theorem unlessBusy_related {f : State → State} (hb : s.busy = t.busy) (hlost : R (overrun s) (overrun t))
    (hdone : R (f s) (f t)) : R (unlessBusy f s) (unlessBusy f t) := by
  rw [unlessBusy, unlessBusy, hb]
  split
  · exact hlost
  · exact hdone

theorem corresponds_access {off size : Nat} {act : Reg → State → State} (hrst : s.rst = t.rst)
    (hreg : ∀ r, R (act r s) (act r t)) (herr : ∀ x, R (respond x s) (respond x t)) :
    Corresponds R (access off size act s) (access off size act t) := by
  rw [access, access, hrst]
  split
  · rfl
  · split
    · rfl
    · cases regAt off size with
      | some r => exact hreg r
      | none => exact herr _

/-- R60: two related states have corresponding steps if their engine's turns correspond. -/
theorem KeptByHost.corresponds_step (hR : KeptByHost R) (h : R s t)
    (hturn : EnginesTurn s → ∀ es, Corresponds R (engineTurn { s with agenda := es }) (engineTurn { t with agenda := es })) :
    Corresponds R (step s) (step t) := by
  cases ha : s.agenda with
  | nil =>
    have hs : ({ s with agenda := [] } : State) = s := by rw [← ha]
    have ht : ({ t with agenda := [] } : State) = t := by rw [← ha, hR.agenda_eq h]
    have hnil := hturn (.inl ha) []
    rw [hs, ht] at hnil
    rwa [step_nil ha, step_nil ((hR.agenda_eq h).symm.trans ha)]
  | cons e es =>
    have hes := hR.withAgenda h es
    rw [step_cons ha, step_cons ((hR.agenda_eq h).symm.trans ha)]
    cases e with
    | read off size => exact corresponds_access (hR.rst_eq hes) (hR.readReg hes) (hR.respond hes)
    | write off size v => exact corresponds_access (hR.rst_eq hes) (fun r => hR.writeReg hes r v) (hR.respond hes)
    | engine => exact hturn (.inr ⟨es, ha⟩) es
    | rst asserted => exact hR.setRst hes asserted

/-- R186: two engine's turns correspond if they find the same pending word and its completions correspond. -/
theorem corresponds_engineTurn (hpend : s.pend = t.pend) (h : R s t)
    (hcomplete : ∀ c, s.pend = some c → Corresponds R (completeWord c s) (completeWord c t)) :
    Corresponds R (engineTurn s) (engineTurn t) := by
  cases hp : s.pend with
  | none => rwa [engineTurn_none hp, engineTurn_none (hpend.symm.trans hp)]
  | some c =>
    rw [engineTurn_some hp, engineTurn_some (hpend.symm.trans hp)]
    exact hcomplete c hp

/-- R186, R172: two completions correspond if those of the decoded command do, and that of an illegal word. -/
theorem corresponds_completeWord {c : Word} (hillegal : R (complete .illegalCmd s) (complete .illegalCmd t))
    (hexec : ∀ i, decode c = .command i → Corresponds R (exec i s) (exec i t)) :
    Corresponds R (completeWord c s) (completeWord c t) := by
  rw [completeWord, completeWord]
  cases hc : decode c with
  | command i => exact hexec i hc
  | illegal why => exact hillegal

/-- R93, R95: two completions of KEYSCHED with the same LEN. -/
theorem corresponds_keysched (hlen : s.keyLen = t.keyLen)
    (hlegal : R (complete .none { s with cipher := ks (stateKey s), keyValid := true })
      (complete .none { t with cipher := ks (stateKey t), keyValid := true }))
    (hillegal : R (complete .invalidKey s) (complete .invalidKey t)) :
    Corresponds R (exec .keysched s) (exec .keysched t) := by
  have hcheck : legalKeyLen t.keyLen.toNat = legalKeyLen s.keyLen.toNat := by rw [hlen]
  rw [exec, exec, execKeysched, execKeysched, hcheck]
  split
  · exact hlegal
  · exact hillegal

/-- R153: two completions of UNPAD on the same block. -/
theorem corresponds_unpad (hblock : stateBlock s = stateBlock t)
    (hvalid : ∀ np nd, R (complete .none { s with npad := np, ndata := nd }) (complete .none { t with npad := np, ndata := nd }))
    (hinvalid : R (complete .invalidPadding s) (complete .invalidPadding t)) :
    Corresponds R (exec .unpad s) (exec .unpad t) := by
  rw [exec, exec, execUnpad, execUnpad, ← hblock]
  cases blockPadCount (stateBlock s) with
  | some n => exact hvalid _ _
  | none => exact hinvalid

/-- R126, R130: two completions of a block command on the same block under the same tables, or both without a key. -/
theorem corresponds_transformBlock {f : CipherState → Word × Word → Word × Word} (hkey : s.keyValid = t.keyValid)
    (hkeyed : s.keyValid = true → f s.cipher (s.blkL, s.blkR) = f t.cipher (t.blkL, t.blkR) ∧
      ∀ l r, R (complete .none { s with blkL := l, blkR := r }) (complete .none { t with blkL := l, blkR := r }))
    (hunkeyed : R (complete .noKey s) (complete .noKey t)) :
    Corresponds R (transformBlock f s) (transformBlock f t) := by
  cases hk : s.keyValid with
  | true =>
    obtain ⟨hblock, hrel⟩ := hkeyed hk
    rw [transformBlock_keyed hk, transformBlock_keyed (hkey.symm.trans hk), hblock]
    exact hrel _ _
  | false =>
    rw [transformBlock_unkeyed hk, transformBlock_unkeyed (hkey.symm.trans hk)]
    exact hunkeyed

end

/-! ## The tables while no key is valid -/

theorem sameButHiddenTables_iff {s t : State} : SameButHiddenTables s t ↔
    ∃ k, t = { s with cipher := k } ∧ (s.keyValid = true → k = s.cipher) := by
  refine ⟨fun ⟨ht, hk⟩ => ⟨t.cipher, ht, hk⟩, ?_⟩
  rintro ⟨k, rfl, hk⟩
  exact ⟨rfl, hk⟩

/-- R40: no register of the window shows a word of P or S, and no write reads one. -/
theorem keptByHost_sameButHiddenTables : KeptByHost SameButHiddenTables := by
  constructor
  all_goals
    intro s t h
    obtain ⟨k, rfl, hk⟩ := sameButHiddenTables_iff.mp h
  case rst_eq | agenda_eq => rfl
  case withAgenda | respond => exact fun _ => ⟨rfl, hk⟩
  case readReg => exact fun r => readReg_related rfl (by cases r <;> rfl) ⟨rfl, hk⟩ fun _ => ⟨rfl, hk⟩
  case writeReg =>
    intro r v
    cases r with
    | cmd | keylen | blkL | blkR | key => exact unlessBusy_related rfl ⟨rfl, hk⟩ ⟨rfl, hk⟩
    | id | status | inten | result | reserved => exact ⟨rfl, hk⟩
  case setRst =>
    intro asserted
    cases asserted with
    | true => exact ⟨rfl, fun _ => rfl⟩
    | false => exact ⟨rfl, hk⟩

/-- R40, R95, R126: without a key a command does not read the tables; KEYSCHED and ZEROIZE replace them. -/
theorem corresponds_exec_sameButHiddenTables (i : Instr) {s t : State} (h : SameButHiddenTables s t) :
    Corresponds SameButHiddenTables (exec i s) (exec i t) := by
  obtain ⟨k, rfl, hk⟩ := sameButHiddenTables_iff.mp h
  have hblock (hkeyed : s.keyValid = true) (f : CipherState → Word × Word → Word × Word) :
      f s.cipher (s.blkL, s.blkR) = f k (s.blkL, s.blkR) := by rw [hk hkeyed]
  cases i with
  | nop | pad => exact ⟨rfl, hk⟩
  | keysched => exact corresponds_keysched rfl ⟨rfl, fun _ => rfl⟩ ⟨rfl, hk⟩
  | encb | decb => exact corresponds_transformBlock rfl (fun hkeyed => ⟨hblock hkeyed _, fun _ _ => ⟨rfl, hk⟩⟩) ⟨rfl, hk⟩
  | unpad => exact corresponds_unpad rfl (fun _ _ => ⟨rfl, hk⟩) ⟨rfl, hk⟩
  | zeroize => exact ⟨rfl, fun _ => rfl⟩

/-- Settles O42: the accesses do not read the tables, and a command reads them only with a key. -/
theorem tablesAreUnobservableWithoutAKey : Obligations.TablesAreUnobservableWithoutAKey := by
  intro s t h
  have hstep : Corresponds SameButHiddenTables (step s) (step t) :=
    keptByHost_sameButHiddenTables.corresponds_step h fun _ es => by
      have hes := keptByHost_sameButHiddenTables.withAgenda h es
      obtain ⟨k, rfl, hk⟩ := sameButHiddenTables_iff.mp h
      exact corresponds_engineTurn rfl hes fun _ _ =>
        corresponds_completeWord ⟨rfl, hk⟩ fun i _ => corresponds_exec_sameButHiddenTables i hes
  obtain ⟨k, rfl, -⟩ := sameButHiddenTables_iff.mp h
  exact ⟨rfl, rfl, hstep⟩

/-! ## The stored key words -/

theorem sameButKeys_iff {s t : State} : SameButKeys s t ↔ ∃ key, t = { s with key := key } := by
  refine ⟨fun ht => ⟨t.key, ht⟩, ?_⟩
  rintro ⟨key, rfl⟩
  rfl

/-- R28, R37: the key registers read 0, and a write to one of them changes nothing else. -/
theorem keptByHost_sameButKeys : KeptByHost SameButKeys := by
  constructor
  all_goals
    intro s t h
    obtain ⟨key, rfl⟩ := sameButKeys_iff.mp h
  case rst_eq | agenda_eq => rfl
  case withAgenda | respond => exact fun _ => rfl
  case readReg => exact fun r => readReg_related rfl (by cases r <;> rfl) rfl fun _ => rfl
  case writeReg =>
    intro r v
    cases r with
    | cmd | keylen | blkL | blkR | key => exact unlessBusy_related rfl rfl rfl
    | id | status | inten | result | reserved => rfl
  case setRst => exact fun asserted => by cases asserted <;> rfl

/-- R37, R94: no command but KEYSCHED reads the key words. -/
theorem corresponds_exec_sameButKeys {i : Instr} (hi : i ≠ .keysched) {s t : State} (h : SameButKeys s t) :
    Corresponds SameButKeys (exec i s) (exec i t) := by
  obtain ⟨key, rfl⟩ := sameButKeys_iff.mp h
  cases i with
  | keysched => exact absurd rfl hi
  | nop | pad | zeroize => rfl
  | encb | decb => exact corresponds_transformBlock rfl (fun _ => ⟨rfl, fun _ _ => rfl⟩) rfl
  | unpad => exact corresponds_unpad rfl (fun _ _ => rfl) rfl

/-- Settles O43: the accesses show no key word, and the only command that reads one is KEYSCHED. -/
theorem keyBytesAreUnobservable : Obligations.KeyBytesAreUnobservable := by
  intro s t h hno
  have hstep : Corresponds SameButKeys (step s) (step t) :=
    keptByHost_sameButKeys.corresponds_step h fun hturn es => by
      have hes := keptByHost_sameButKeys.withAgenda h es
      obtain ⟨key, rfl⟩ := sameButKeys_iff.mp h
      refine corresponds_engineTurn rfl hes fun c hp => corresponds_completeWord rfl fun i hc =>
        corresponds_exec_sameButKeys ?_ hes
      rintro rfl
      exact hno ⟨hturn, c, hp, hc⟩
  obtain ⟨key, rfl⟩ := sameButKeys_iff.mp h
  exact ⟨rfl, rfl, hstep⟩

end Sys2Proof.Machine

/-! # Reset (10_state.md R40; 70_reset_and_hazards.md R210, R211) -/

namespace Sys2Proof.Machine

/-- R28: every byte of key words that are 0 is 0. -/
theorem keyByte_replicate_zero (q : Nat) : keyByte (Vector.replicate 14 0) q = 0 := by
  have hword : (Vector.replicate 14 (0 : Word))[q / 4]?.getD 0 = 0 := by
    rw [Vector.getElem?_replicate]
    split <;> rfl
  rw [keyByte, hword, byteOf]
  exact BitVec.extractLsb'_zero

/-- Settles O1: every register of the reset state is the constant 0, and STATUS, RESULT and the line are computed from them. -/
theorem resetLeavesTheSpecifiedValues : Obligations.ResetLeavesTheSpecifiedValues :=
  ⟨rfl, rfl, rfl, rfl, rfl, rfl, rfl, by decide, rfl, rfl, fun q _ => keyByte_replicate_zero q, rfl, rfl, by decide, rfl⟩

/-- Settles O2: the reset state is idle and `rst` is released in it, so the write to CMD is `accept`. -/
theorem afterResetTheNextCommandIsAccepted : Obligations.AfterResetTheNextCommandIsAccepted := fun c es =>
  step_write_regOffset .cmd (s := { State.reset with agenda := .write 0x04 4 c :: es }) rfl rfl

/-- Settles O3: the tables that `assertReset` leaves are those of the model's reset state. -/
theorem resetAbandonsThePendingCommand : Obligations.ResetAbandonsThePendingCommand := fun _ _ =>
  ⟨fun ha => ⟨CipherState.zero, step_cons ha⟩, fun ha => step_cons ha⟩

end Sys2Proof.Machine

/-! # The commands (40_key_schedule.md R93 to R95; 42_block_cipher.md R126, R130; 44_control.md R171; R188) -/

namespace Sys2Proof.Machine

/-! ## KEYSCHED -/

/-- Settles O5: the length check of KEYSCHED succeeds. -/
theorem keyschedBuildsTheCipherState : Obligations.KeyschedBuildsTheCipherState := fun _ hmin hmax =>
  if_pos ((legalKeyLen_iff _).mpr ⟨hmin, hmax⟩)

/-- Settles O6: the length check of KEYSCHED fails. -/
theorem keyschedRefusesIllegalLength : Obligations.KeyschedRefusesIllegalLength := fun s hlen =>
  if_neg fun hlegal => by
    obtain ⟨hmin, hmax⟩ := (legalKeyLen_iff s.keyLen.toNat).mp hlegal
    omega

/-! ## ENCB and DECB -/

/-- Settles O7: with a key ENCB is the transformation by `encW`. -/
theorem encbTransformsTheBlock : Obligations.EncbTransformsTheBlock := fun _ hk => transformBlock_keyed hk encW

/-- Settles O8: with a key DECB is the transformation by `decW`. -/
theorem decbTransformsTheBlock : Obligations.DecbTransformsTheBlock := fun _ hk => transformBlock_keyed hk decW

/-- Settles O9: both commands are transformations of the block, which need a key. -/
theorem blockCommandsWithoutAKeyReportNoKey : Obligations.BlockCommandsWithoutAKeyReportNoKey := by
  intro i s hi hk
  obtain ⟨f, hf⟩ := exec_eq_transformBlock hi
  rw [hf, transformBlock_unkeyed hk]
  rfl

/-! ## ZEROIZE -/

theorem CipherState.zero_p (i : Fin 18) : CipherState.zero.p[i] = 0 := Vector.getElem_replicate _

theorem CipherState.zero_s (a : Fin 4) (j : Fin 256) : (CipherState.zero.s[a])[j] = 0 := by
  have htable : CipherState.zero.s[a] = Vector.replicate 256 0 := Vector.getElem_replicate _
  rw [htable]
  exact Vector.getElem_replicate _

/-- R171: STATUS after ZEROIZE shows DONE, and OVR if it was set. -/
theorem statusWord_complete_zeroed (s : State) : statusWord (complete .none (zeroed s)) = 4 ||| bitAt s.ovr 3 := by
  simp only [statusWord, complete_busy, complete_keyValid, zeroed_keyValid, complete_done, complete_ovr, zeroed_ovr,
    complete_err]
  cases s.ovr <;> decide

/-- Settles O12: what ZEROIZE leaves is `zeroed`, completed; its key flag is 0. -/
theorem zeroizeDestroysTheKeyMaterial : Obligations.ZeroizeDestroysTheKeyMaterial := by
  refine ⟨rfl, fun s => ⟨complete .none (zeroed s), rfl, rfl, CipherState.zero_p, CipherState.zero_s,
    fun q _ => keyByte_replicate_zero q, fun hovr => ?_, fun i hi => blockCommandsWithoutAKeyReportNoKey i _ hi rfl⟩⟩
  rw [statusWord_complete_zeroed, hovr]
  decide

/-! ## Failures -/

/-- Settles O14: a command fails by completing with a code over the state as it was; every other completion writes code 0. -/
theorem failedCommandChangesOnlyStatus : Obligations.FailedCommandChangesOnlyStatus := by
  intro c s t h herr
  rcases completeWord_next h with ⟨i, -, hi⟩ | ⟨why, -, rfl⟩
  · rcases exec_next hi with ⟨e, -, rfl⟩ | ⟨-, rfl⟩ | ⟨-, -, rfl⟩ | ⟨-, -, rfl⟩ | ⟨-, -, rfl⟩ | ⟨r, -, rfl⟩ |
      ⟨n, -, -, rfl⟩ | ⟨-, rfl⟩
    · rfl
    all_goals exact absurd rfl herr
  · rfl

end Sys2Proof.Machine

/-! # The lifecycle of a command (60_exceptions.md R184 to R187, R192) -/

namespace Sys2Proof.Machine

/-! ## The engine's turn as a step -/

theorem step_engine_cons {s : State} {es : List Event} (ha : s.agenda = .engine :: es) :
    step s = engineTurn { s with agenda := es } := step_cons ha

theorem engineTurn_of_decode_command {s : State} {c : Word} {i : Instr} (hp : s.pend = some c)
    (hc : decode c = .command i) : engineTurn s = exec i s := by
  rw [engineTurn_some hp, completeWord, hc]

theorem engineTurn_of_decode_illegal {s : State} {c : Word} {why : IllegalWord} (hp : s.pend = some c)
    (hc : decode c = .illegal why) : engineTurn s = .next { s with err := 6, done := true, pend := none } :=
  (engineTurn_some hp).trans (completeWord_of_decode_illegal hc s)

/-- Settles O19: the engine's turn comes with an empty agenda, or is taken off it. -/
theorem stepRunsTheDecodedInstruction : Obligations.StepRunsTheDecodedInstruction := by
  refine ⟨fun s c hp => ⟨fun i hc => ⟨fun ha => ?_, fun es ha => ?_⟩, fun why hc => ⟨fun ha => ?_, fun es ha => ?_⟩⟩,
    fun s hp => ⟨fun ha => ?_, fun es ha => ?_⟩⟩
  · exact (step_nil ha).trans (engineTurn_of_decode_command hp hc)
  · exact (step_engine_cons ha).trans (engineTurn_of_decode_command hp hc)
  · exact (step_nil ha).trans (engineTurn_of_decode_illegal hp hc)
  · exact (step_engine_cons ha).trans (engineTurn_of_decode_illegal hp hc)
  · exact (step_nil ha).trans (engineTurn_none hp)
  · exact (step_engine_cons ha).trans (engineTurn_none hp)

theorem step_of_enginesTurn {s : State} (h : EnginesTurn s) : step s = engineTurn { s with agenda := s.agenda.tail } := by
  rcases h with ha | ⟨es, ha⟩
  · rw [step_nil ha, ha, List.tail_nil, ← ha]
  · rw [step_engine_cons ha, ha, List.tail_cons]

/-- R186: the engine's turn completes a pending command, and leaves `rst`, OVR and what is still to come. -/
theorem exists_step_of_enginesTurn {s : State} {c : Word} (hp : s.pend = some c) (h : EnginesTurn s) :
    ∃ t, step s = .next t ∧ t.pend = none ∧ t.done = true ∧ t.ovr = s.ovr ∧ t.rst = s.rst ∧ t.agenda = s.agenda.tail := by
  obtain ⟨t, ht⟩ := completeWord_answers_next c { s with agenda := s.agenda.tail }
  obtain ⟨hdone, hovr, -, -, hrst, hagenda, -⟩ := completeWord_keeps ht
  have hstep : step s = .next t := by
    rw [step_of_enginesTurn h, ← ht]
    exact engineTurn_some hp
  exact ⟨t, hstep, completeWord_pend ht, hdone, hovr, hrst, hagenda⟩

/-! ## Accesses while a command is pending -/

/-- The state `s` with the sticky bits, the enables and the host's side of `h`. -/
def withHostSide (s h : State) : State :=
  { s with
    done := h.done
    ovr := h.ovr
    doneIe := h.doneIe
    ovrIe := h.ovrIe
    agenda := h.agenda
    received := h.received
    draws := h.draws }

/-- R185, R187: `t` holds the registers a command works on as `s` does, and the same pending word. -/
def SameOperands (s t : State) : Prop := t = withHostSide s t

theorem SameOperands.trans {s t u : State} (hst : SameOperands s t) (htu : SameOperands t u) : SameOperands s u :=
  calc u = withHostSide t u := htu
    _ = withHostSide (withHostSide s t) u := congrArg (withHostSide · u) hst
    _ = withHostSide s u := rfl

theorem SameOperands.pend_eq {s t : State} (h : SameOperands s t) : t.pend = s.pend := by
  rw [h, withHostSide]

theorem SameOperands.rst_eq {s t : State} (h : SameOperands s t) : t.rst = s.rst := by
  rw [h, withHostSide]

theorem sameOperands_readReg (r : Reg) (s : State) : SameOperands s (readReg r s) := by
  rcases readReg_cases r s with h | h <;> rw [h] <;> rfl

/-- R185: while a command is pending a write reaches the sticky bits and INTEN at most. -/
theorem sameOperands_writeReg {s : State} (hb : s.busy = true) (r : Reg) (v : Word) : SameOperands s (writeReg r v s) := by
  rcases writeReg_busy hb r v with ⟨-, h⟩ | ⟨-, h⟩ | ⟨-, h⟩ | ⟨-, h⟩ <;> rw [h] <;> rfl

/-- R53: an access in the window acts on a register or gives back the bus error. -/
theorem exists_access_eq_next {off size : Nat} {s : State} (act : Reg → State → State) (hr : s.rst = false)
    (ho : off < 128) : ∃ t, access off size act s = .next t ∧ ((∃ r, t = act r s) ∨ ∃ x, t = respond x s) := by
  refine ⟨_, access_eq_next act hr ho, ?_⟩
  cases regAt off size with
  | some r => exact .inl ⟨r, rfl⟩
  | none => exact .inr ⟨_, rfl⟩

/-- R185, R187: an access in the window while a command is pending is a step that keeps the command and its operands. -/
theorem step_windowAccess_busy {s : State} {c : Word} {e : Event} {es : List Event} (hp : s.pend = some c)
    (hr : s.rst = false) (he : e.isWindowAccess = true) (ha : s.agenda = e :: es) :
    ∃ t, step s = .next t ∧ t.agenda = es ∧ SameOperands s t := by
  have hes : SameOperands s { s with agenda := es } := rfl
  have hb : ({ s with agenda := es } : State).busy = true := busy_of_pend_some hp
  rw [step_cons ha]
  cases e with
  | read off size =>
    obtain ⟨t, ht, ⟨r, rfl⟩ | ⟨x, rfl⟩⟩ :=
      exists_access_eq_next (s := { s with agenda := es }) readReg hr (of_decide_eq_true he)
    · refine ⟨_, ht, ?_, hes.trans (sameOperands_readReg r _)⟩
      rcases readReg_cases r { s with agenda := es } with h | h <;> rw [h] <;> rfl
    · exact ⟨_, ht, rfl, rfl⟩
  | write off size v =>
    obtain ⟨t, ht, ⟨r, rfl⟩ | ⟨x, rfl⟩⟩ :=
      exists_access_eq_next (s := { s with agenda := es }) (fun r => writeReg r v) hr (of_decide_eq_true he)
    · obtain ⟨-, -, -, -, -, -, hagenda, -⟩ := writeReg_keeps r v { s with agenda := es }
      exact ⟨_, ht, hagenda, hes.trans (sameOperands_writeReg hb r v)⟩
    · exact ⟨_, ht, rfl, rfl⟩
  | engine => cases he
  | rst asserted => cases he

theorem runSteps_succ {k : Nat} {s t : State} (h : step s = .next t) : runSteps (k + 1) s = runSteps k t := by
  rw [runSteps, h]

/-- R185, R64: any number of such accesses keep the command and its operands. -/
theorem sameOperands_of_runSteps {c : Word} {es rest : List Event} {s t : State} (hp : s.pend = some c)
    (hr : s.rst = false) (hes : ∀ e ∈ es, e.isWindowAccess = true) (ha : s.agenda = es ++ rest)
    (h : runSteps es.length s = .next t) : SameOperands s t := by
  induction es generalizing s with
  | nil =>
    cases h
    rfl
  | cons e es ih =>
    rw [List.forall_mem_cons] at hes
    obtain ⟨u, hstep, hu, hsame⟩ := step_windowAccess_busy hp hr hes.1 ha
    rw [List.length_cons, runSteps_succ hstep] at h
    exact hsame.trans (ih (hsame.pend_eq.trans hp) (hsame.rst_eq.trans hr) hes.2 hu h)

/-! ## The completion after them -/

/-- R186: `v` is what the completion gives in `u`, but for OVR, INTEN and the host's side. -/
def SameResult (u v : State) : Prop :=
  v = { u with
    ovr := v.ovr
    doneIe := v.doneIe
    ovrIe := v.ovrIe
    agenda := v.agenda
    received := v.received
    draws := v.draws }

/-- R186: no command reads DONE, OVR, INTEN or the host's side. -/
theorem corresponds_exec_withHostSide (i : Instr) (s h : State) :
    Corresponds SameResult (exec i s) (exec i (withHostSide s h)) := by
  cases i with
  | nop | pad | zeroize => rfl
  | keysched => exact corresponds_keysched rfl rfl rfl
  | encb | decb => exact corresponds_transformBlock rfl (fun _ => ⟨rfl, fun _ _ => rfl⟩) rfl
  | unpad => exact corresponds_unpad rfl (fun _ _ => rfl) rfl

/-- R186: equal operands give equal results. -/
theorem SameOperands.corresponds_completeWord {s t : State} (h : SameOperands s t) (c : Word) :
    Corresponds SameResult (completeWord c s) (completeWord c t) := by
  rw [h]
  exact Machine.corresponds_completeWord rfl fun i _ => corresponds_exec_withHostSide i s t

/-- Settles O22: the accesses keep the command's operands, so the two completions do the same. -/
theorem pendingCommandUsesItsOperandsAtAcceptance : Obligations.PendingCommandUsesItsOperandsAtAcceptance := by
  intro es s t u v c hp hr hes ht hu hv
  have hagenda : SameOperands s { s with agenda := es ++ s.agenda } := rfl
  have hsame : SameOperands s t := hagenda.trans (sameOperands_of_runSteps hp hr hes rfl ht)
  have htp : t.pend = some c := hsame.pend_eq.trans hp
  have hresult := hsame.corresponds_completeWord c
  rw [← engineTurn_some hp, ← engineTurn_some htp, hu, hv] at hresult
  exact ⟨htp, hresult⟩

/-! ## Every pending command completes -/

/-- R186: the engine's turn comes after at most as many steps as there are events, and finds the command still pending. -/
theorem exists_runSteps_enginesTurn {s : State} {c : Word} {es : List Event} (hp : s.pend = some c) (hr : s.rst = false)
    (hes : ∀ e ∈ es, e = .engine ∨ e.isWindowAccess = true) (ha : s.agenda = es) :
    ∃ k t, k ≤ es.length ∧ runSteps k s = .next t ∧ t.pend = some c ∧ EnginesTurn t := by
  induction es generalizing s with
  | nil => exact ⟨0, s, Nat.le_refl 0, rfl, hp, .inl ha⟩
  | cons e es ih =>
    rw [List.forall_mem_cons] at hes
    obtain ⟨rfl | he, hes⟩ := hes
    · exact ⟨0, s, Nat.zero_le _, rfl, hp, .inr ⟨es, ha⟩⟩
    · obtain ⟨u, hstep, hu, hsame⟩ := step_windowAccess_busy hp hr he ha
      obtain ⟨k, t, hk, hrun, ht⟩ := ih (hsame.pend_eq.trans hp) (hsame.rst_eq.trans hr) hes hu
      exact ⟨k + 1, t, Nat.succ_le_succ hk, (runSteps_succ hstep).trans hrun, ht⟩

/-- Settles O23: the engine's turn comes, and a turn with a command pending completes it. -/
theorem pendingCommandCompletes : Obligations.PendingCommandCompletes := by
  intro s c hp hr hes
  obtain ⟨k, t, hk, hrun, htp, hturn⟩ := exists_runSteps_enginesTurn hp hr hes rfl
  obtain ⟨u, hstep, hup, hdone, -⟩ := exists_step_of_enginesTurn htp hturn
  exact ⟨k, t, u, hk, hrun, htp, hturn, hstep, hup, hdone⟩

/-! ## A write that races a completion -/

/-- R184, R25, R27, R28: a guarded write while no command is pending is performed and leaves OVR. -/
theorem writeReg_guardedReg_idle {r : Reg} {s : State} (hg : guardedReg r) (hb : s.busy = false) (v : Word) :
    (writeReg r v s).ovr = s.ovr ∧
      (r = .cmd → writeReg r v s = { s with pend := some v }) ∧
      (r = .keylen → writeReg r v s = { s with keyLen := v.setWidth 6 }) ∧
      (r = .blkL → writeReg r v s = { s with blkL := v }) ∧
      (r = .blkR → writeReg r v s = { s with blkR := v }) ∧
      (∀ i, r = .key i → writeReg r v s = { s with key := s.key.set i v }) := by
  rcases hg with rfl | rfl | rfl | rfl | ⟨i, rfl⟩ <;> simp only [writeReg, unlessBusy_idle hb]
  · exact ⟨rfl, fun _ => rfl, nofun, nofun, nofun, nofun⟩
  · exact ⟨rfl, nofun, fun _ => rfl, nofun, nofun, nofun⟩
  · exact ⟨rfl, nofun, nofun, fun _ => rfl, nofun, nofun⟩
  · exact ⟨rfl, nofun, nofun, nofun, fun _ => rfl, nofun⟩
  · refine ⟨rfl, nofun, nofun, nofun, nofun, ?_⟩
    rintro _ ⟨⟩
    rfl

/-- Settles O24: before the completion the engine is busy and the write is lost, after it the engine is idle. -/
theorem racingWriteMayFallOnEitherSide : Obligations.RacingWriteMayFallOnEitherSide := by
  intro s c v r es hp hr hg
  refine ⟨step_write_guardedReg_busy hg (busy_of_pend_some hp) hr, fun ha => ?_⟩
  obtain ⟨u, hstep, hup, -, hovr, hrst, hagenda⟩ := exists_step_of_enginesTurn hp (.inr ⟨_, ha⟩)
  rw [ha, List.tail_cons] at hagenda
  have hidle : ({ u with agenda := es } : State).busy = false := busy_of_pend_none hup
  obtain ⟨hkeep, hwrite⟩ := writeReg_guardedReg_idle hg hidle v
  exact ⟨u, _, hstep, hup, step_write_regOffset r (hrst.trans hr) hagenda, hkeep.trans hovr, hwrite⟩

end Sys2Proof.Machine

/-! # What changes the flags and the tables (10_state.md R31 to R33) -/

namespace Sys2Proof.Machine

/-! ## DONE and OVR -/

/-- R23, R185: a write leaves DONE and OVR, or clears them through STATUS, or is lost on a busy engine and sets OVR. -/
theorem writeReg_sticky (r : Reg) (v : Word) (s : State) :
    ((writeReg r v s).done = s.done ∧ (writeReg r v s).ovr = s.ovr) ∨ (r = .status ∧ writeReg r v s = clearSticky v s) ∨
      (guardedReg r ∧ s.busy = true ∧ writeReg r v s = overrun s) := by
  have hkeep {u : State} (h : writeReg r v s = u) (hdone : u.done = s.done) (hovr : u.ovr = s.ovr) :
      (writeReg r v s).done = s.done ∧ (writeReg r v s).ovr = s.ovr := by rw [h]; exact ⟨hdone, hovr⟩
  cases hb : s.busy with
  | true =>
    rcases writeReg_busy hb r v with ⟨hg, h⟩ | hstatus | ⟨-, h⟩ | ⟨-, h⟩
    · exact .inr (.inr ⟨hg, rfl, h⟩)
    · exact .inr (.inl hstatus)
    · exact .inl (hkeep h rfl rfl)
    · exact .inl (hkeep h rfl rfl)
  | false =>
    rcases writeReg_idle hb r v with ⟨-, h⟩ | ⟨-, h⟩ | ⟨-, h⟩ | ⟨-, h⟩ | ⟨i, -, h⟩ | hstatus | ⟨-, h⟩ | ⟨-, h⟩
    · exact .inl (hkeep h rfl rfl)
    · exact .inl (hkeep h rfl rfl)
    · exact .inl (hkeep h rfl rfl)
    · exact .inl (hkeep h rfl rfl)
    · exact .inl (hkeep h rfl rfl)
    · exact .inr (.inl hstatus)
    · exact .inl (hkeep h rfl rfl)
    · exact .inl (hkeep h rfl rfl)

/-- R20: the offsets of the guarded registers. -/
theorem regOffset_of_guardedReg {r : Reg} (hg : guardedReg r) :
    regOffset r = 0x04 ∨ regOffset r = 0x10 ∨ regOffset r = 0x18 ∨ regOffset r = 0x1C ∨
      ∃ i, i < 14 ∧ regOffset r = 0x20 + 4 * i := by
  rcases hg with rfl | rfl | rfl | rfl | ⟨i, rfl⟩
  · exact .inl rfl
  · exact .inr (.inl rfl)
  · exact .inr (.inr (.inl rfl))
  · exact .inr (.inr (.inr (.inl rfl)))
  · exact .inr (.inr (.inr (.inr ⟨i.val, i.isLt, rfl⟩)))

/-- R31: all a step can do to DONE and OVR: nothing, set DONE by a completion, clear either by a write to STATUS, set OVR by a lost
write, or clear both by reset. -/
theorem step_sticky {s t : State} (h : step s = .next t) :
    (t.done = s.done ∧ t.ovr = s.ovr) ∨
    ((EnginesTurn s ∧ s.pend ≠ none) ∧ t.done = true ∧ t.ovr = s.ovr) ∨
    (∃ es v, s.agenda = .write 0x08 4 v :: es ∧ t.done = (s.done && !v.getLsbD 2) ∧ t.ovr = (s.ovr && !v.getLsbD 3)) ∨
    ((s.pend ≠ none ∧ ∃ es off v, s.agenda = .write off 4 v :: es ∧
        (off = 0x04 ∨ off = 0x10 ∨ off = 0x18 ∨ off = 0x1C ∨ ∃ i, i < 14 ∧ off = 0x20 + 4 * i)) ∧
      t.done = s.done ∧ t.ovr = true) ∨
    ((∃ es, s.agenda = .rst true :: es) ∧ t.done = false ∧ t.ovr = false) := by
  rcases step_effects h with ⟨hturn, es, ht⟩ | ⟨es, -, -, rcv, dr, -, rfl⟩ |
    ⟨es, off, size, v, ha, -, ⟨r, rfl, hreg, rfl⟩ | ⟨rcv, rfl⟩⟩ | ⟨es, b, ha, rfl⟩
  · rcases engineTurn_next ht with ⟨-, rfl⟩ | ⟨c, hp, hc⟩
    · exact .inl ⟨rfl, rfl⟩
    · obtain ⟨hdone, hovr, -⟩ := completeWord_keeps hc
      exact .inr (.inl ⟨⟨hturn, Option.ne_none_iff_exists'.mpr ⟨c, hp⟩⟩, hdone, hovr⟩)
  · exact .inl ⟨rfl, rfl⟩
  · have hoff := regAt_some_offset hreg
    rcases writeReg_sticky r v { s with agenda := es } with hkeep | ⟨rfl, hw⟩ | ⟨hg, hb, hw⟩
    · exact .inl hkeep
    · obtain rfl : off = 0x08 := hoff
      exact .inr (.inr (.inl ⟨es, v, ha, by rw [hw]; rfl, by rw [hw]; rfl⟩))
    · have hp : s.pend ≠ none := Option.isSome_iff_ne_none.mp hb
      refine .inr (.inr (.inr (.inl ⟨⟨hp, es, off, v, ha, ?_⟩, by rw [hw]; rfl, by rw [hw]; rfl⟩)))
      rw [hoff]
      exact regOffset_of_guardedReg hg
  · exact .inl ⟨rfl, rfl⟩
  · cases b with
    | true => exact .inr (.inr (.inr (.inr ⟨⟨es, ha⟩, rfl, rfl⟩)))
    | false => exact .inl ⟨rfl, rfl⟩

/-- Settles O38: each of the two bits has one event that sets it, and falls by a 1 written to its place in STATUS or by reset. -/
theorem stickyBitsAreSticky : Obligations.StickyBitsAreSticky := by
  intro s t h
  have habsurd {b : Bool} {p : Prop} (hf : b = false) (ht : b = true) : p := nomatch hf.symm.trans ht
  rcases step_sticky h with ⟨hdone, hovr⟩ | ⟨hturn, hdone, hovr⟩ | ⟨es, v, ha, hdone, hovr⟩ | ⟨hlost, hdone, hovr⟩ |
    ⟨hreset, hdone, hovr⟩ <;> rw [hdone, hovr]
  · exact ⟨habsurd, flip habsurd, habsurd, flip habsurd⟩
  · exact ⟨fun _ _ => hturn, nofun, habsurd, flip habsurd⟩
  · refine ⟨fun hf ht => habsurd hf (Bool.and_elim_left ht), fun ht hf => .inl ⟨es, v, ha, ?_⟩,
      fun hf ht => habsurd hf (Bool.and_elim_left ht), fun ht hf => .inl ⟨es, v, ha, ?_⟩⟩
    · rwa [ht, Bool.true_and, Bool.not_eq_false'] at hf
    · rwa [ht, Bool.true_and, Bool.not_eq_false'] at hf
  · exact ⟨habsurd, flip habsurd, fun _ _ => hlost, nofun⟩
  · exact ⟨nofun, fun _ _ => .inr hreset, nofun, fun _ _ => .inr hreset⟩

/-! ## KEYVALID, ERR, P and S -/

/-- R31, R33: all a step can do to the key flag and the tables. -/
theorem step_key {s t : State} (h : step s = .next t) :
    (t.keyValid = s.keyValid ∧ t.cipher = s.cipher) ∨
    (EnginesTurn s ∧ ∃ c, s.pend = some c ∧
      (decode c = .command .keysched ∧ legalKeyLen s.keyLen.toNat = true ∧ t.keyValid = true ∨
        decode c = .command .zeroize ∧ t.keyValid = false)) ∨
    ((∃ es, s.agenda = .rst true :: es) ∧ t.keyValid = false) := by
  rcases step_effects h with ⟨hturn, es, ht⟩ | ⟨es, -, -, rcv, dr, -, rfl⟩ |
    ⟨es, -, -, v, -, -, ⟨r, -, -, rfl⟩ | ⟨rcv, rfl⟩⟩ | ⟨es, b, ha, rfl⟩
  · rcases engineTurn_next ht with ⟨-, rfl⟩ | ⟨c, hp, hc⟩
    · exact .inl ⟨rfl, rfl⟩
    · rcases completeWord_key hc with hkeep | ⟨hd, hlen, hkey, -⟩ | ⟨hd, hkey, -⟩
      · exact .inl hkeep
      · exact .inr (.inl ⟨hturn, c, hp, .inl ⟨hd, hlen, hkey⟩⟩)
      · exact .inr (.inl ⟨hturn, c, hp, .inr ⟨hd, hkey⟩⟩)
  · exact .inl ⟨rfl, rfl⟩
  · obtain ⟨hkey, -, hcipher, -⟩ := writeReg_keeps r v { s with agenda := es }
    exact .inl ⟨hkey, hcipher⟩
  · exact .inl ⟨rfl, rfl⟩
  · cases b with
    | true => exact .inr (.inr ⟨⟨es, ha⟩, rfl⟩)
    | false => exact .inl ⟨rfl, rfl⟩

/-- R31: all a step can do to ERR. -/
theorem step_err {s t : State} (h : step s = .next t) :
    t.err = s.err ∨ (EnginesTurn s ∧ s.pend ≠ none) ∨ ∃ es, s.agenda = .rst true :: es := by
  rcases step_effects h with ⟨hturn, es, ht⟩ | ⟨es, -, -, rcv, dr, -, rfl⟩ |
    ⟨es, -, -, v, -, -, ⟨r, -, -, rfl⟩ | ⟨rcv, rfl⟩⟩ | ⟨es, b, ha, rfl⟩
  · rcases engineTurn_next ht with ⟨-, rfl⟩ | ⟨c, hp, -⟩
    · exact .inl rfl
    · exact .inr (.inl ⟨hturn, Option.ne_none_iff_exists'.mpr ⟨c, hp⟩⟩)
  · exact .inl rfl
  · obtain ⟨-, herr, -⟩ := writeReg_keeps r v { s with agenda := es }
    exact .inl herr
  · exact .inl rfl
  · cases b with
    | true => exact .inr (.inr ⟨es, ha⟩)
    | false => exact .inl rfl

/-- Settles O37: KEYVALID is set by KEYSCHED and cleared by ZEROIZE and reset, and ERR is written by completions and reset. -/
theorem keyvalidAndErrAreWrittenOnlyByCompletion : Obligations.KeyvalidAndErrAreWrittenOnlyByCompletion := by
  intro s t h
  refine ⟨fun hs ht => ?_, fun hs ht => ?_, (step_err h).resolve_left⟩
  · rcases step_key h with ⟨hkey, -⟩ | ⟨hturn, c, hp, ⟨hd, hlen, -⟩ | ⟨-, hkey⟩⟩ | ⟨-, hkey⟩
    · cases hs.symm.trans (hkey.symm.trans ht)
    · exact ⟨hturn, ⟨c, hp, hd⟩, (legalKeyLen_iff _).mp hlen⟩
    · cases hkey.symm.trans ht
    · cases hkey.symm.trans ht
  · rcases step_key h with ⟨hkey, -⟩ | ⟨hturn, c, hp, ⟨-, -, hkey⟩ | ⟨hd, -⟩⟩ | ⟨hreset, -⟩
    · cases hs.symm.trans (hkey.symm.trans ht)
    · cases hkey.symm.trans ht
    · exact .inl ⟨hturn, c, hp, hd⟩
    · exact .inr hreset

/-- Settles O39: what may change the key flag is all that may change the tables. -/
theorem cipherStateIsReadOnlyBetweenKeys : Obligations.CipherStateIsReadOnlyBetweenKeys := by
  intro s t h
  rcases step_key h with ⟨-, hcipher⟩ | ⟨hturn, c, hp, ⟨hd, -⟩ | ⟨hd, -⟩⟩ | ⟨hreset, -⟩
  · exact .inl hcipher
  · exact .inr (.inl ⟨hturn, c, hp, .inl hd⟩)
  · exact .inr (.inl ⟨hturn, c, hp, .inr hd⟩)
  · exact .inr (.inr hreset)

end Sys2Proof.Machine

/-! # The register window (10_state.md R20 to R28; 20_memory.md R50 to R58) -/

namespace Sys2Proof.Machine

/-! ## The map -/

/-- R20: every word of the window has its register. -/
theorem exists_regAt {off : Nat} (hoff : off < 128) (hmod : off % 4 = 0) : ∃ r, regAt off 4 = some r := by
  have hword : ∀ w < 32, (regOfWord w).isSome = true := by decide
  obtain ⟨r, hr⟩ := Option.isSome_iff_exists.mp (hword (off / 4) (by omega))
  exact ⟨r, by rw [regAt, if_pos ⟨rfl, hmod⟩, hr]⟩

/-- R58, R59: an access that reaches the window is the engine's access at its offset. -/
theorem runOnPlatform_access {pr : Config.Parameters} {m a off : Nat} (h : windowOffset pr m a = some off) (size : Nat)
    (v : Word) (s : State) :
    runOnPlatform pr [.read m a size] s = memRead off size s ∧
      runOnPlatform pr [.write m a size v] s = memWrite off size v s := by
  simp only [runOnPlatform, engineEvents, List.filterMap_cons, List.filterMap_nil, engineEvent, h, Option.map_some,
    perform_singleton, happen, and_self]

/-- R58, R59: any other access is no event of the engine. -/
theorem runOnPlatform_noAccess {pr : Config.Parameters} {m a : Nat} (h : windowOffset pr m a = none) (size : Nat)
    (v : Word) (s : State) :
    runOnPlatform pr [.read m a size] s = .next s ∧ runOnPlatform pr [.write m a size v] s = .next s := by
  simp only [runOnPlatform, engineEvents, List.filterMap_cons, List.filterMap_nil, engineEvent, h, Option.map_none,
    perform_nil, and_self]

/-- Settles O25: a register and its offset determine each other, and `windowOffset` says which platform accesses reach one. -/
theorem windowMapIsComplete : Obligations.WindowMapIsComplete := by
  refine ⟨fun r => ⟨regAt_regOffset r, regOffset_lt r, (regAt_some_aligned (regAt_regOffset r)).2⟩, fun off hoff hmod => ?_,
    fun pr m a size v s => ⟨fun off hm ha hoff => ?_, fun hno => ?_⟩⟩
  · obtain ⟨r, hr⟩ := exists_regAt hoff hmod
    refine ⟨r, (regAt_some_offset hr).symm, hr, ?_⟩
    rintro r' rfl
    exact Option.some.inj ((regAt_regOffset r').symm.trans hr)
  · exact runOnPlatform_access ((windowOffset_eq_some_iff pr m a off).mpr ⟨hm, ha, hoff⟩) size v s
  · exact runOnPlatform_noAccess ((windowOffset_eq_none_iff pr m a).mpr hno) size v s

/-! ## Writes -/

/-- R25, R27, R28: a guarded write while no command is pending is performed. -/
theorem step_write_idle {r : Reg} {f : State → State} {s : State} {v : Word} {es : List Event}
    (hwrite : ∀ u, writeReg r v u = unlessBusy f u) (hp : s.pend = none) (hr : s.rst = false)
    (ha : s.agenda = .write (regOffset r) 4 v :: es) : step s = .next (f { s with agenda := es }) := by
  have hb : ({ s with agenda := es } : State).busy = false := busy_of_pend_none hp
  rw [step_write_regOffset r hr ha, hwrite, unlessBusy_idle hb]

/-- R28: the key bytes after a write to KEYi. -/
theorem keyByte_set (key : Vector Word 14) (i : Fin 14) (v : Word) (q : Nat) :
    keyByte (key.set i v) q = if q / 4 = i.val then byteOf v (q % 4) else keyByte key q := by
  rw [keyByte, keyByte, Vector.getElem?_set]
  by_cases h : q / 4 = i.val
  · rw [if_pos h, if_pos h.symm, Option.getD_some]
  · rw [if_neg h, if_neg (Ne.symm h)]

/-- Settles O26: each offset is that of a register, whose write is performed or changes nothing. -/
theorem dataWritesWhileIdle : Obligations.DataWritesWhileIdle := by
  intro s off v es hp hr ha
  refine ⟨?_, ?_, ?_, ?_, fun hoff => ?_⟩
  · rintro rfl
    rw [step_write_idle (r := .keylen) (fun _ => rfl) hp hr ha, setKeyLen, BitVec.setWidth_eq_extractLsb' (by decide)]
  · rintro rfl
    exact step_write_idle (r := .blkL) (fun _ => rfl) hp hr ha
  · rintro rfl
    exact step_write_idle (r := .blkR) (fun _ => rfl) hp hr ha
  · rintro i rfl
    exact ⟨_, step_write_idle (r := .key i) (fun _ => rfl) hp hr ha, rfl, fun q _ => keyByte_set s.key i v q⟩
  · obtain ⟨r, hself, rfl⟩ := exists_unwritableReg_of_offset (.inr hoff)
    rw [step_write_regOffset r hr ha, hself]

/-- Settles O30: the write is `clearSticky`, which no pending command guards; with both bits cleared the line has no cause. -/
theorem statusWriteClearsStickyBits : Obligations.StatusWriteClearsStickyBits := by
  intro s v es hr ha
  have hand (b c : Bool) : (b && !c) = if c then false else b := by cases b <;> cases c <;> rfl
  refine ⟨_, step_write_regOffset .status hr ha, ?_, fun hdone hovr => ?_⟩
  · simp only [writeReg, clearSticky, hand]
  · simp only [writeReg, irq, clearSticky, hdone, hovr, Bool.not_true, Bool.and_false, Bool.false_and, Bool.or_self]

/-! ## Reads -/

/-- R26: RESULT as a number, from its two fields. -/
theorem resultWord_eq_ofNat (s : State) : resultWord s = BitVec.ofNat 32 (16 * s.npad.toNat + s.ndata.toNat) := by
  have hfields : ∀ a b : BitVec 4,
      a.setWidth 32 <<< 4 ||| b.setWidth 32 = BitVec.ofNat 32 (16 * a.toNat + b.toNat) := by decide
  exact hfields s.npad s.ndata

/-- R56: a read of a register while no command is pending. -/
theorem step_read_idle (r : Reg) {s : State} {es : List Event} (hp : s.pend = none) (hr : s.rst = false)
    (ha : s.agenda = .read (regOffset r) 4 :: es) :
    step s = .next (respond (.data (regValue r s)) { s with agenda := es }) := by
  have hv : regValue r { s with agenda := es } = regValue r s := by cases r <;> rfl
  have hb : ({ s with agenda := es } : State).busy = false := busy_of_pend_none hp
  rw [step_read hr (regOffset_lt r) (regAt_regOffset r) ha, readReg_value (.inl hb), hv]

/-- Settles O31: each offset is that of a register, and its read gives the register's value. -/
theorem readsWhileIdle : Obligations.ReadsWhileIdle := by
  intro s off es hp hr ha
  refine ⟨?_, ?_, ?_, ?_, ?_, ?_, fun hoff => ?_⟩
  · rintro rfl
    exact step_read_idle .status hp hr ha
  · rintro rfl
    exact step_read_idle .inten hp hr ha
  · rintro rfl
    exact step_read_idle .keylen hp hr ha
  · rintro rfl
    rw [step_read_idle .result hp hr ha, regValue, resultWord_eq_ofNat]
    rfl
  · rintro rfl
    exact step_read_idle .blkL hp hr ha
  · rintro rfl
    exact step_read_idle .blkR hp hr ha
  · obtain ⟨r, -, hzero, rfl⟩ := exists_zeroReg_of_offset hoff
    rw [step_read_idle r hp hr ha, hzero]
    rfl

/-- Settles O33: a read of any width changes what the host has received and the count of draws at most. -/
theorem readsChangeNoRegister : Obligations.ReadsChangeNoRegister := by
  intro s t off size es ha h
  rw [step_cons ha] at h
  obtain ⟨rcv, dr, rfl⟩ := memRead_next h
  rfl

/-- R23: no flag of STATUS stands in bits 7:4, and the flags and ERR end at bit 11. -/
theorem getLsbD_statusWord_reserved (s : State) {i : Nat} (hi : 4 ≤ i ∧ i < 8 ∨ 12 ≤ i) :
    (statusWord s).getLsbD i = false := by
  have hflag (b : Bool) (j : Nat) (hj : j < 4) : (bitAt b j).getLsbD i = false := by
    rw [getLsbD_bitAt, decide_eq_false (show ¬ i = j by omega), Bool.and_false, Bool.false_and]
  have herr : (s.err.setWidth 32 <<< 8).getLsbD i = false := by
    rw [BitVec.getLsbD_shiftLeft, BitVec.getLsbD_setWidth]
    rcases hi with hi | hi
    · simp [show i < 8 by omega]
    · rw [BitVec.getLsbD_of_ge s.err (i - 8) (by omega), Bool.and_false, Bool.and_false]
  simp only [statusWord, BitVec.getLsbD_or, hflag _ 0 (by decide), hflag _ 1 (by decide), hflag _ 2 (by decide),
    hflag _ 3 (by decide), herr, Bool.or_self]

/-- Settles O29: the flags and ERR stand at their places, and the bits between and above them are 0. -/
theorem statusWordLayout : Obligations.StatusWordLayout := by
  intro s
  obtain ⟨hbusy, hkey, hdone, hovr⟩ := statusWord_flags s
  have hzero (start len : Nat) (hres : ∀ i < len, 4 ≤ start + i ∧ start + i < 8 ∨ 12 ≤ start + i) :
      (statusWord s).extractLsb' start len = 0 := by
    apply BitVec.eq_of_getLsbD_eq
    intro i hi
    rw [BitVec.getLsbD_extractLsb', getLsbD_statusWord_reserved s (hres i hi), Bool.and_false]
    exact BitVec.getLsbD_zero.symm
  exact ⟨hbusy, hkey, hdone, hovr, hzero 4 4 (by omega), extractLsb'_statusWord_err s, hzero 12 20 (by omega)⟩

/-! ## Accesses that reach no register -/

/-- R53: an access of another width or alignment, in the window and out of reset. -/
theorem access_busError {off size : Nat} {s : State} (act : Reg → State → State) (hr : s.rst = false) (ho : off < 128)
    (hwidth : size ≠ 4 ∨ off % 4 ≠ 0) : access off size act s = .next (respond (.busError off size) s) := by
  have hnone : regAt off size = none := hwidth.elim regAt_wrong_size regAt_unaligned
  rw [access_eq_next act hr ho, hnone]

/-- Settles O34: a read and a write are both an `access`. -/
theorem otherWidthsGetABusError : Obligations.OtherWidthsGetABusError := fun _ _ _ _ hr ho hwidth =>
  ⟨fun ha => (step_cons ha).trans (access_busError _ hr ho hwidth),
    fun _ ha => (step_cons ha).trans (access_busError _ hr ho hwidth)⟩

/-- Settles O35: a read and a write are both an `access`, which looks at `rst` first and then at the offset. -/
theorem accessesWithoutAStep : Obligations.AccessesWithoutAStep := by
  intro s off size v es ha
  obtain ⟨act, hstep⟩ : ∃ act, step s = access off size act { s with agenda := es } := by
    rcases ha with ha | ha
    · exact ⟨_, step_cons ha⟩
    · exact ⟨_, step_cons ha⟩
  rw [hstep, access]
  refine ⟨fun hr => if_pos hr, fun hr ho => ?_⟩
  rw [if_neg (by rw [hr]; decide), if_pos (show Config.windowBytes ≤ off from ho)]

end Sys2Proof.Machine

/-! # The output blocks of the key schedule (40_key_schedule.md R97, R98) -/

namespace Sys2Proof.Machine

/-- R98: two neighbouring words of a table stored, the others kept. -/
theorem getElem_set_set_succ {n m : Nat} (t : Vector Word n) (x y : Word) (h : m + 1 < n) (i : Fin n) :
    ((t.set m x (Nat.lt_of_succ_lt h)).set (m + 1) y h)[i] =
      if i.val = m then x else if i.val = m + 1 then y else t[i] := by
  rw [Fin.getElem_fin, Vector.getElem_set, Vector.getElem_set]
  by_cases hm : i.val = m
  · rw [if_pos hm, if_neg (by omega), if_pos hm.symm]
  · rw [if_neg hm, if_neg (Ne.symm hm)]
    by_cases hs : i.val = m + 1
    · rw [if_pos hs, if_pos hs.symm]
    · rw [if_neg hs, if_neg (Ne.symm hs), Fin.getElem_fin]

theorem getElem_putP (k : CipherState) (j : Fin 9) (b : Word × Word) (i : Fin 18) :
    (putP k j b).p[i] = if i.val = 2 * j.val then b.1 else if i.val = 2 * j.val + 1 then b.2 else k.p[i] :=
  getElem_set_set_succ k.p b.1 b.2 (by omega) i

theorem getElem_putS (k : CipherState) (t : Fin 4) (j : Fin 128) (b : Word × Word) (a : Fin 4) (i : Fin 256) :
    ((putS k t j b).s[a])[i] =
      if a = t ∧ i.val = 2 * j.val then b.1 else if a = t ∧ i.val = 2 * j.val + 1 then b.2 else (k.s[a])[i] := by
  by_cases h : a = t
  · subst h
    simp only [true_and]
    rw [putS_s_self, getElem_set_set_succ]
  · rw [putS_s_other k h]
    simp only [h, false_and, if_false]

/-- Settles O49: an output block is stored to an even index and the odd one after it, in the one table. -/
theorem outputBlockGoesToTwoWords : Obligations.OutputBlockGoesToTwoWords :=
  ⟨fun k j b => ⟨putP_s k j b, getElem_putP k j b⟩, fun k t j b => ⟨putS_p k t j b, getElem_putS k t j b⟩⟩

/-- R97: the replacement of a table S[t] leaves P. -/
theorem fillS_tables_p (c : Chain) (t : Fin 4) : (fillS c t).tables.p = c.tables.p :=
  List.foldlRecOn (motive := fun d : Chain => d.tables.p = c.tables.p) _ _ rfl fun _ hd _ _ => hd

theorem foldl_fillS_tables_p (ts : List (Fin 4)) (c : Chain) : (ts.foldl fillS c).tables.p = c.tables.p :=
  List.foldlRecOn (motive := fun d : Chain => d.tables.p = c.tables.p) _ _ rfl fun d hd t _ => (fillS_tables_p d t).trans hd

/-- The first two whitening words hold the block `b`. -/
def StartsWith (b : Word × Word) (k : CipherState) : Prop := k.p[0] = b.1 ∧ k.p[1] = b.2

theorem startsWith_putP_zero (k : CipherState) (b : Word × Word) : StartsWith b (putP k 0 b) :=
  ⟨getElem_putP k 0 b 0, getElem_putP k 0 b 1⟩

/-- R97: the later output blocks go to later words. -/
theorem StartsWith.putP_succ {b : Word × Word} {k : CipherState} (h : StartsWith b k) (j : Fin 8) (b' : Word × Word) :
    StartsWith b (putP k j.succ b') := by
  have h0 := getElem_putP k j.succ b' 0
  have h1 := getElem_putP k j.succ b' 1
  rw [if_neg (by simp), if_neg (by simp)] at h0
  rw [if_neg (by simp; omega), if_neg (by simp)] at h1
  exact ⟨h0.trans h.1, h1.trans h.2⟩

/-- R97: the nine encryptions that replace P keep the output of the first in its first two words. -/
theorem startsWith_fillP (c : Chain) : StartsWith (encW c.tables c.block) (fillP c).tables := by
  rw [fillP, List.finRange_succ, List.foldl_cons, List.foldl_map]
  exact List.foldlRecOn (motive := fun d : Chain => StartsWith _ d.tables) _ _ (startsWith_putP_zero _ _)
    fun _ hd j _ => hd.putP_succ j _

/-- Settles O51: the first output fills the first two words, and neither the rest of P nor the tables S are stored there. -/
theorem firstOutputFillsP0AndP1 : Obligations.FirstOutputFillsP0AndP1 := by
  intro k
  have hp : (ks k).p = (fillP (chainStart (mixKey k))).tables.p := foldl_fillS_tables_p _ _
  rw [hp]
  exact startsWith_fillP (chainStart (mixKey k))

end Sys2Proof.Machine

/-! # The host procedures on the engine (30_encoding.md R81, R82; 43_padding.md R158, R159) -/

namespace Sys2Proof.Machine

/-! ## Events done one after the other, whatever comes after them -/

theorem runSteps_add {j : Nat} (k : Nat) {s t : State} (h : runSteps j s = .next t) :
    runSteps (j + k) s = runSteps k t := by
  induction j generalizing s with
  | zero =>
    cases h
    rw [Nat.zero_add]
  | succ j ih =>
    cases hstep : step s with
    | next u =>
      rw [runSteps_succ hstep] at h
      rw [Nat.succ_add, runSteps_succ hstep, ih h]
    | fault r | refused r =>
      rw [runSteps, hstep] at h
      cases h

/-- The events `es` take the engine from `s` to `t`, whatever the agenda holds after them. -/
def Does (es : List Event) (s t : State) : Prop :=
  ∀ rest, runSteps es.length { s with agenda := es ++ rest } = .next { t with agenda := rest }

theorem does_singleton {e : Event} {s t : State}
    (h : ∀ rest, step { s with agenda := e :: rest } = .next { t with agenda := rest }) : Does [e] s t := fun rest =>
  runSteps_succ (k := 0) (h rest)

theorem Does.append {es fs : List Event} {s t u : State} (hst : Does es s t) (htu : Does fs t u) :
    Does (es ++ fs) s u := by
  intro rest
  rw [List.length_append, List.append_assoc, runSteps_add _ (hst (fs ++ rest)), htu rest]

theorem Does.script_cons {l : HostLine} {ls : List HostLine} {s t u : State} (hst : Does (lineEvents l) s t)
    (htu : Does (scriptEvents ls) t u) : Does (scriptEvents (l :: ls)) s u := by
  rw [scriptEvents, List.flatMap_cons]
  exact hst.append htu

theorem does_script_nil (s : State) : Does (scriptEvents []) s s := fun _ => rfl

theorem newResponses_eq {s t : State} {rs : List Response} (h : t.received = rs.reverse ++ s.received) :
    newResponses s t = rs := by
  rw [newResponses, h, List.length_append, Nat.add_sub_cancel, List.take_left, List.reverse_reverse]

/-- R81: a script gives the host the responses to its events, in their order. -/
theorem Does.runScript {ls : List HostLine} {s t : State} {rs : List Response} (h : Does (scriptEvents ls) s t)
    (hrs : t.received = rs.reverse ++ s.received) : runScript ls s = some (rs, { t with agenda := s.agenda }) := by
  have hperform : perform (scriptEvents ls) s = .next { t with agenda := s.agenda } := h s.agenda
  rw [Machine.runScript, hperform]
  exact congrArg (fun x => some (x, _)) (newResponses_eq hrs)

/-! ## Accesses and commands of an idle engine -/

theorem does_read {s : State} (h : Idle s) (r : Reg) : Does [readOf r] s (respond (.data (regValue r s)) s) :=
  does_singleton fun rest => by
    have hv : regValue r { s with agenda := readOf r :: rest } = regValue r s := by cases r <;> rfl
    rw [step_read_idle r (s := { s with agenda := readOf r :: rest }) h.1 h.2 rfl, hv]
    rfl

theorem does_write {r : Reg} {v : Word} {f : State → State} {s : State} (h : Idle s)
    (hwrite : ∀ u, writeReg r v u = unlessBusy f u)
    (hagenda : ∀ es, f { s with agenda := es } = { f s with agenda := es }) : Does [writeTo r v] s (f s) :=
  does_singleton fun rest =>
    (step_write_idle (s := { s with agenda := writeTo r v :: rest }) hwrite h.1 h.2 rfl).trans
      (congrArg _ (hagenda rest))

/-- R186: no command reads what is still to come. -/
theorem corresponds_exec_withAgenda (i : Instr) (s : State) (es : List Event) :
    Corresponds (fun t u => u = { t with agenda := es }) (exec i s) (exec i { s with agenda := es }) := by
  cases i with
  | nop | pad | zeroize => rfl
  | keysched => exact corresponds_keysched rfl rfl rfl
  | encb | decb => exact corresponds_transformBlock rfl (fun _ => ⟨rfl, fun _ _ => rfl⟩) rfl
  | unpad => exact corresponds_unpad rfl (fun _ _ => rfl) rfl

theorem exec_withAgenda {i : Instr} {s t : State} (h : exec i s = .next t) (es : List Event) :
    exec i { s with agenda := es } = .next { t with agenda := es } := by
  obtain ⟨u, hu⟩ := exec_answers_next i { s with agenda := es }
  have hrel := corresponds_exec_withAgenda i s es
  rw [h, hu] at hrel
  rw [hu]
  exact congrArg _ hrel

/-- R186: a command leaves an idle engine. -/
theorem idle_of_exec {i : Instr} (hi : i.wellFormed = true) {s t : State} (hr : s.rst = false) (h : exec i s = .next t) :
    Idle t := by
  have hc : completeWord (encode i) s = .next t := by
    rw [completeWord, decode_encode hi]
    exact h
  obtain ⟨-, -, -, -, hrst, -⟩ := completeWord_keeps hc
  exact ⟨completeWord_pend hc, hrst.trans hr⟩

/-! ## The lines of the host procedures on a keyed idle engine -/

/-- R158, R159: what the host procedures keep: the engine is idle and keyed with the tables `k`. -/
def Ready (k : CipherState) (s : State) : Prop := Idle s ∧ s.keyValid = true ∧ s.cipher = k

/-- R27, R82: the block that LDBLK loads from a sequence: its first eight bytes. -/
def loadedBlock (b : List Byte) : List Byte := blockBytes (wordAt b 0) (wordAt b 4)

/-- A block function on the bytes of a block. -/
def mapBlock (f : CipherState → Word × Word → Word × Word) (k : CipherState) (b : List Byte) : List Byte :=
  blockBytes (f k (wordAt b 0, wordAt b 4)).1 (f k (wordAt b 0, wordAt b 4)).2

theorem mapBlock_encW : mapBlock encW = encBlock := rfl

theorem mapBlock_decW : mapBlock decW = decBlock := rfl

theorem mapBlock_blockBytes (f : CipherState → Word × Word → Word × Word) (k : CipherState) (l r : Word) :
    mapBlock f k (blockBytes l r) = blockBytes (f k (l, r)).1 (f k (l, r)).2 := by
  rw [mapBlock, wordAt_blockBytes_zero, wordAt_blockBytes_four]

theorem mapBlock_loadedBlock (f : CipherState → Word × Word → Word × Word) (k : CipherState) (b : List Byte) :
    mapBlock f k (loadedBlock b) = mapBlock f k b := mapBlock_blockBytes f k _ _

section

variable {k : CipherState} {s : State}

/-- R82: LDBLK writes both halves of the block. -/
theorem exists_does_ldblk (h : Ready k s) (b : List Byte) :
    ∃ t, Does (lineEvents (.ldblk b)) s t ∧ Ready k t ∧ stateBlock t = loadedBlock b ∧ t.received = s.received := by
  obtain ⟨hidle, hkeyed⟩ := h
  have hleft : Does [writeTo .blkL (wordAt b 0)] s (setBlkL (wordAt b 0) s) :=
    does_write hidle (fun _ => rfl) fun _ => rfl
  have hright : Does [writeTo .blkR (wordAt b 4)] (setBlkL (wordAt b 0) s) (setBlockBytes b s) :=
    does_write (f := setBlkR (wordAt b 4)) (s := setBlkL (wordAt b 0) s) hidle (fun _ => rfl) fun _ => rfl
  exact ⟨_, hleft.append hright, ⟨hidle, hkeyed⟩, rfl, rfl⟩

/-- R82: RDBLK reads both halves of the block. -/
theorem exists_does_rdblk (h : Ready k s) :
    ∃ t, Does (lineEvents .rdblk) s t ∧ Ready k t ∧ stateBlock t = stateBlock s ∧
      t.received = .data s.blkR :: .data s.blkL :: s.received := by
  obtain ⟨hidle, hkeyed⟩ := h
  have hleft := does_read hidle .blkL
  have hright := does_read (s := respond (.data s.blkL) s) hidle .blkR
  exact ⟨_, hleft.append hright, ⟨hidle, hkeyed⟩, rfl, rfl⟩

/-- R23, R82, R186: RUN accepts the command, completes it and reads STATUS. -/
theorem exists_does_run {i : Instr} (hi : i.wellFormed = true) (hs : Idle s) {t : State}
    (h : exec i (accept (encode i) s) = .next t) (hready : t.keyValid = true ∧ t.cipher = k) :
    ∃ u, Does (lineEvents (.run i 0)) s u ∧ Ready k u ∧ stateBlock u = stateBlock t ∧ u.ndata = t.ndata ∧
      ∃ st, errOf st = t.err ∧ u.received = .data st :: t.received := by
  have ht : Idle t := idle_of_exec hi hs.2 h
  have haccept : Does [writeTo .cmd (encode i)] s (accept (encode i) s) := does_write hs (fun _ => rfl) fun _ => rfl
  have hengine : Does [.engine] (accept (encode i) s) t := does_singleton fun rest =>
    (step_engine_cons rfl).trans ((engineTurn_of_decode_command rfl (decode_encode hi)).trans (exec_withAgenda h rest))
  exact ⟨_, haccept.append (hengine.append (does_read ht .status)), ⟨ht, hready⟩, rfl, rfl, statusWord t,
    extractLsb'_statusWord_err t, rfl⟩

/-- R126, R130: RUN of a block command. -/
theorem exists_does_run_transform {i : Instr} {f : CipherState → Word × Word → Word × Word} (hi : i.wellFormed = true)
    (hf : ∀ s, exec i s = transformBlock f s) (h : Ready k s) :
    ∃ t, Does (lineEvents (.run i 0)) s t ∧ Ready k t ∧ stateBlock t = mapBlock f k (stateBlock s) ∧
      ∃ st, errOf st = 0 ∧ t.received = .data st :: s.received := by
  obtain ⟨hidle, hkey, rfl⟩ := h
  obtain ⟨t, hdoes, ht, hblock, -, hst⟩ :=
    exists_does_run hi hidle ((hf _).trans (transformBlock_keyed hkey f)) ⟨hkey, rfl⟩
  exact ⟨t, hdoes, ht, hblock.trans (mapBlock_blockBytes f _ _ _).symm, hst⟩

/-- R150: RUN PAD r. -/
theorem exists_does_run_pad {r : Nat} (hr : r < 8) (h : Ready k s) :
    ∃ t, Does (lineEvents (.run (.pad r) 0)) s t ∧ Ready k t ∧ stateBlock t = padBlock r (stateBlock s) ∧
      ∃ st, errOf st = 0 ∧ t.received = .data st :: s.received := by
  obtain ⟨hidle, hkeyed⟩ := h
  obtain ⟨t, hdoes, ht, hblock, -, hst⟩ := exists_does_run (i := .pad r) (decide_eq_true hr) hidle rfl hkeyed
  exact ⟨t, hdoes, ht, hblock.trans (blockBytes_wordAt (length_padBlock hr.le (length_stateBlock s))), hst⟩

/-- R153: RUN UNPAD on a block with `n` padding bytes. -/
theorem exists_does_run_unpad_of_some {n : Nat} (h : Ready k s) (hn : blockPadCount (stateBlock s) = some n) :
    ∃ t, Does (lineEvents (.run .unpad 0)) s t ∧ Ready k t ∧ t.ndata = BitVec.ofNat 4 (8 - n) ∧
      ∃ st, errOf st = 0 ∧ t.received = .data st :: s.received := by
  obtain ⟨hidle, hkeyed⟩ := h
  obtain ⟨t, hdoes, ht, -, hndata, hst⟩ :=
    exists_does_run rfl hidle (exec_unpad_of_some (s := accept (encode .unpad) s) hn) hkeyed
  exact ⟨t, hdoes, ht, hndata, hst⟩

/-- R153: RUN UNPAD on a malformed block. -/
theorem exists_does_run_unpad_of_none (h : Ready k s) (hn : blockPadCount (stateBlock s) = none) :
    ∃ t, Does (lineEvents (.run .unpad 0)) s t ∧ ∃ st, errOf st = 4 ∧ t.received = .data st :: s.received := by
  obtain ⟨hidle, hkeyed⟩ := h
  obtain ⟨t, hdoes, -, -, -, hst⟩ :=
    exists_does_run rfl hidle (exec_unpad_of_none (s := accept (encode .unpad) s) hn) hkeyed
  exact ⟨t, hdoes, hst⟩

/-- R81: RD RESULT. -/
theorem exists_does_rd_result (h : Ready k s) :
    ∃ t, Does (lineEvents (.rd .result)) s t ∧ Ready k t ∧ t.received = .data (resultWord s) :: s.received := by
  obtain ⟨hidle, hkeyed⟩ := h
  exact ⟨_, does_read hidle .result, ⟨hidle, hkeyed⟩, rfl⟩

end

/-! ## Blocks -/

/-- R163: the check of ERR passes after a command without an error. -/
theorem checkErr_of_errOf_zero {α : Type} {st : Word} (h : errOf st = 0) (x : α) : checkErr st x = .ok x := if_pos h

/-- R158, R159: LDBLK, RUN of a block command and RDBLK give the block function of the block, which stays in the engine. -/
theorem exists_hostBlock_eq {i : Instr} {f : CipherState → Word × Word → Word × Word} (hi : i.wellFormed = true)
    (hf : ∀ s, exec i s = transformBlock f s) {k : CipherState} {s : State} (h : Ready k s) (b : List Byte) :
    ∃ t, hostBlock i b s = .ok (mapBlock f k b, t) ∧ Ready k t ∧ stateBlock t = mapBlock f k b := by
  obtain ⟨t, hload, ht, htb, htr⟩ := exists_does_ldblk h b
  obtain ⟨u, hrun, hu, hub, st, hst, hur⟩ := exists_does_run_transform hi hf ht
  obtain ⟨v, hread, hv, hvb, hvr⟩ := exists_does_rdblk hu
  rw [htb, mapBlock_loadedBlock] at hub
  have hscript := hload.script_cons (hrun.script_cons (hread.script_cons (does_script_nil v)))
  rw [hostBlock, hscript.runScript (rs := [.data st, .data u.blkL, .data u.blkR]) (by rw [hvr, hur, htr]; rfl), ← hub]
  exact ⟨_, checkErr_of_errOf_zero hst _, hv, hvb⟩

/-- R158, R159: the same for the blocks of a list. -/
theorem exists_hostBlocks_eq {i : Instr} {f : CipherState → Word × Word → Word × Word} (hi : i.wellFormed = true)
    (hf : ∀ s, exec i s = transformBlock f s) {k : CipherState} (bs : List (List Byte)) {s : State} (h : Ready k s) :
    ∃ t, hostBlocks i bs s = .ok (bs.flatMap (mapBlock f k), t) ∧ Ready k t := by
  induction bs generalizing s with
  | nil => exact ⟨s, rfl, h⟩
  | cons b bs ih =>
    obtain ⟨t, hb, ht, -⟩ := exists_hostBlock_eq hi hf h b
    obtain ⟨u, hbs, hu⟩ := ih ht
    refine ⟨u, ?_, hu⟩
    simp only [hostBlocks, hb, hbs, List.flatMap_cons]

/-! ## encrypt_data -/

/-- R27: the first bytes of a sequence are those of the block loaded from it, even if it is too short for a block. -/
theorem take_loadedBlock {b : List Byte} {r : Nat} (hr : r ≤ 8) (hb : r ≤ b.length) : (loadedBlock b).take r = b.take r := by
  have hbytes : loadedBlock b = (List.range 8).map fun i => b.getD i 0 := by
    simp [loadedBlock, wordAt, blockBytes, List.range_succ]
  apply List.ext_getElem?
  intro i
  rw [hbytes, List.getElem?_take, List.getElem?_take]
  by_cases hi : i < r
  · rw [if_pos hi, if_pos hi, List.getElem?_map, List.getElem?_range (by omega), Option.map_some,
      List.getD_eq_getElem?_getD, List.getElem?_eq_getElem (by omega), Option.getD_some]
  · rw [if_neg hi, if_neg hi]

/-- R158: LDBLK, RUN PAD, RUN ENCB and RDBLK give the encryption of the padded block. -/
theorem exists_hostLastBlock_eq {k : CipherState} {s : State} (h : Ready k s) (junk : List Byte) {tail : List Byte}
    (htail : tail.length < 8) :
    ∃ t, hostLastBlock junk tail s =
        .ok (encBlock k (padBlock tail.length (loadedBlock (tail ++ junk.take (8 - tail.length)))), t) ∧ Ready k t := by
  obtain ⟨t, hload, ht, htb, htr⟩ := exists_does_ldblk h (tail ++ junk.take (8 - tail.length))
  obtain ⟨u, hpad, hu, hub, st, hst, hur⟩ := exists_does_run_pad htail ht
  obtain ⟨v, henc, hv, hvb, st', hst', hvr⟩ := exists_does_run_transform (i := .encb) (f := encW) rfl (fun _ => rfl) hu
  obtain ⟨w, hread, hw, -, hwr⟩ := exists_does_rdblk hv
  rw [hub, htb, mapBlock_encW] at hvb
  have hscript := hload.script_cons (hpad.script_cons (henc.script_cons (hread.script_cons (does_script_nil w))))
  rw [hostLastBlock, hscript.runScript (rs := [.data st, .data st', .data v.blkL, .data v.blkR])
    (by rw [hwr, hvr, hur, htr]; rfl), ← hvb]
  simp only [checkErr_of_errOf_zero hst, checkErr_of_errOf_zero hst']
  exact ⟨_, rfl, hw⟩

/-- R158: the blocks of the padded data are the whole blocks of the data and the last block. -/
theorem fullBlocks_padBytes (d : List Byte) :
    fullBlocks (padBytes d) = fullBlocks d ++ [(padBytes d).drop (8 * (d.length / 8))] := by
  have hcount : (padBytes d).length / 8 = d.length / 8 + 1 := by
    rw [length_padBytes, Nat.mul_div_cancel_left _ (by decide)]
  rw [fullBlocks, hcount, List.range_succ, List.map_append, fullBlocks, List.map_singleton]
  congr 1
  · apply List.map_congr_left
    intro j hj
    have hlt : j < d.length / 8 := List.mem_range.mp hj
    rw [padBytes_eq_append, List.drop_append_of_le_length (by omega),
      List.take_append_of_le_length (by rw [List.length_drop]; omega)]
  · rw [List.take_of_length_le (by rw [List.length_drop, length_padBytes]; omega)]

/-- Settles O59: the whole blocks one by one, and the last block padded by PAD r. -/
theorem hostEncryptRealisesEncryptData : Obligations.HostEncryptRealisesEncryptData := by
  intro junk d s hidle hkey
  have htail : (d.drop (8 * (d.length / 8))).length = d.length % 8 := by rw [List.length_drop]; omega
  obtain ⟨t, hblocks, ht⟩ := exists_hostBlocks_eq (i := .encb) (f := encW) rfl (fun _ => rfl) (fullBlocks d)
    ⟨hidle, hkey, rfl⟩
  obtain ⟨u, hlast, huIdle, huKey, huCipher⟩ :=
    exists_hostLastBlock_eq ht junk (tail := d.drop (8 * (d.length / 8))) (by omega)
  refine ⟨u, ?_, huIdle, huKey, huCipher⟩
  rw [htail, padBlock_eq_drop_padBytes] at hlast
  · rw [hostEncrypt, hblocks]
    simp only [hlast, encryptData, fullBlocks_padBytes, List.flatMap_append, List.flatMap_singleton, mapBlock_encW]
  · rw [take_loadedBlock (by omega) (by rw [List.length_append]; omega), ← htail, List.take_left]

/-! ## decrypt_data -/

/-- R26: NDATA is bits 3:0 of RESULT. -/
theorem extractLsb'_resultWord_ndata (s : State) : (resultWord s).extractLsb' 0 4 = s.ndata := by
  have hfields : ∀ a b : BitVec 4, (a.setWidth 32 <<< 4 ||| b.setWidth 32).extractLsb' 0 4 = b := by decide
  exact hfields s.npad s.ndata

/-- R159: RUN UNPAD and RD RESULT on a block with `n` padding bytes. -/
theorem exists_hostUnpad_eq {k : CipherState} {s : State} (h : Ready k s) {n : Nat}
    (hn : blockPadCount (stateBlock s) = some n) : ∃ t, hostUnpad s = .ok (8 - n, t) ∧ Ready k t := by
  obtain ⟨t, hrun, ht, hndata, st, hst, htr⟩ := exists_does_run_unpad_of_some h hn
  obtain ⟨u, hread, hu, hur⟩ := exists_does_rd_result (s := { t with agenda := s.agenda }) ht
  have hunpad : runScript [.run .unpad 0] s = some ([.data st], { t with agenda := s.agenda }) :=
    (hrun.script_cons (does_script_nil t)).runScript htr
  have hresult := (hread.script_cons (does_script_nil u)).runScript (rs := [.data (resultWord _)]) hur
  have hcount : ((resultWord { t with agenda := s.agenda }).extractLsb' 0 4).toNat = 8 - n := by
    rw [extractLsb'_resultWord_ndata, hndata, BitVec.toNat_ofNat, Nat.mod_eq_of_lt (by omega)]
  have hvalid : ¬ errOf st = errNumber .invalidPadding := by rw [hst]; decide
  simp only [hostUnpad, hunpad, if_neg hvalid, checkErr_of_errOf_zero hst, hresult, hcount]
  exact ⟨_, rfl, hu⟩

/-- R159: RUN UNPAD on a malformed block. -/
theorem hostUnpad_eq_error {k : CipherState} {s : State} (h : Ready k s) (hn : blockPadCount (stateBlock s) = none) :
    hostUnpad s = .error .invalidPadding := by
  obtain ⟨t, hrun, st, hst, htr⟩ := exists_does_run_unpad_of_none h hn
  rw [hostUnpad, (hrun.script_cons (does_script_nil t)).runScript (rs := [.data st]) htr]
  exact if_pos hst

theorem length_decBlock (k : CipherState) (b : List Byte) : (decBlock k b).length = 8 := length_blockBytes _ _

/-- A sequence of whole blocks, if it is not empty, has a last block. -/
theorem exists_fullBlocks_eq_concat {c : List Byte} (hc : ¬ (c.length = 0 ∨ c.length % 8 ≠ 0)) :
    ∃ bs b, fullBlocks c = bs ++ [b] := by
  have hlen := length_fullBlocks c
  rcases List.eq_nil_or_concat' (fullBlocks c) with hnil | hconcat
  · rw [hnil, List.length_nil] at hlen
    omega
  · exact hconcat

/-- R154, R159: decrypt_data on whole blocks decides by the padding of the last decrypted block. -/
theorem decryptData_eq {k : CipherState} {c b : List Byte} {bs : List (List Byte)}
    (hc : ¬ (c.length = 0 ∨ c.length % 8 ≠ 0)) (hbs : fullBlocks c = bs ++ [b]) :
    decryptData k c =
      match blockPadCount (decBlock k b) with
      | some n => .ok (bs.flatMap (decBlock k) ++ (decBlock k b).take (8 - n), 8 * (c.length / 8 - 1) + (8 - n))
      | none => .error .invalidPadding := by
  have hblocks : (fullBlocks c).flatMap (decBlock k) = bs.flatMap (decBlock k) ++ decBlock k b := by
    rw [hbs, List.flatMap_append, List.flatMap_singleton]
  have hcount : c.length / 8 - 1 = bs.length := by
    rw [← length_fullBlocks, hbs, List.length_append, List.length_singleton, Nat.add_sub_cancel]
  have hinit : (bs.flatMap (decBlock k)).length = 8 * bs.length := by
    rw [List.length_flatMap, List.map_congr_left fun b _ => length_decBlock k b, List.map_const', List.sum_replicate,
      smul_eq_mul, Nat.mul_comm]
  rw [decryptData, if_neg hc, hblocks, unpadBytes_append (length_decBlock k b)]
  cases hn : blockPadCount (decBlock k b) with
  | none => rfl
  | some n =>
    have hlen : (bs.flatMap (decBlock k) ++ (decBlock k b).take (8 - n)).length = 8 * (c.length / 8 - 1) + (8 - n) := by
      rw [List.length_append, hinit, List.length_take, length_decBlock, hcount, Nat.min_eq_left (Nat.sub_le 8 n)]
    simp only [Option.map_some, hlen]

/-- Settles O60: the length check is the same, and UNPAD on the last decrypted block decides as unpad does. -/
theorem hostDecryptRealisesDecryptData : Obligations.HostDecryptRealisesDecryptData := by
  intro c s hidle hkey
  by_cases hc : c.length = 0 ∨ c.length % 8 ≠ 0
  · rw [decryptData, hostDecrypt, if_pos hc, if_pos hc]
    refine ⟨nofun, fun _ h => ?_⟩
    cases h
    rfl
  · obtain ⟨bs, b, hbs⟩ := exists_fullBlocks_eq_concat hc
    obtain ⟨t, hinit, ht⟩ := exists_hostBlocks_eq (i := .decb) (f := decW) rfl (fun _ => rfl) bs ⟨hidle, hkey, rfl⟩
    obtain ⟨u, hlast, hu, hblock⟩ := exists_hostBlock_eq (i := .decb) (f := decW) rfl (fun _ => rfl) ht b
    rw [mapBlock_decW] at hinit hlast hblock
    rw [decryptData_eq hc hbs, ← hblock, hostDecrypt, if_neg hc]
    simp only [hbs, List.dropLast_concat, List.getLastD_concat, hinit, hlast]
    cases hn : blockPadCount (stateBlock u) with
    | none =>
      rw [hostUnpad_eq_error hu hn]
      refine ⟨nofun, fun _ h => ?_⟩
      cases h
      rfl
    | some n =>
      obtain ⟨v, hunpad, hv, -, hcipher⟩ := exists_hostUnpad_eq hu hn
      rw [hunpad]
      refine ⟨fun x h => ?_, nofun⟩
      cases h
      exact ⟨v, by rw [hblock], hv, hcipher⟩

end Sys2Proof.Machine
